-- ==== Sys2Proof/Word.lean ====
section
/-! DEFINITION. The widths the spec fixes (00_scope.md R8): 32-bit words and masks, 8-bit bytes,
64-bit nanosecond times. -/

namespace Sys2Proof

/-- A 32-bit value: a host register, a command word, a bank mask, a timing constant (R8, R32). -/
abbrev Word := BitVec 32

/-- A data unit of a transfer (R8, R15). -/
abbrev Byte := BitVec 8

/-- A 64-bit unsigned count of nanoseconds (R8, R47, R49). -/
abbrev Time := BitVec 64

/-- One more than the largest time the 64-bit timebase holds (R8, R177). -/
abbrev timeLimit : Nat := 2 ^ 64

end Sys2Proof
end

