-- ==== Sys2Proof/Config.lean ====
section
/-! DEFINITION. The named parameters of 00_scope.md R7 and the free values of 93_implementation_defined.md.
An opaque constant has no body: nothing can evaluate it, so what is proved holds whatever it is. -/

namespace Sys2Proof.Config

/-- Which line variant B strobes for reads: P_B_READ_STROBE (R7, R225). -/
inductive ReadStrobe where
  | enwr
  | rwrd
  deriving DecidableEq, Repr

/-- The overrun policy of WAIT: P_RESYNC_MODE (R7, R171, R172). -/
inductive ResyncMode where
  | immediate
  | rewait
  deriving DecidableEq, Repr

/-- The named parameters, which R7 says the model takes as arguments. A level is `true` for 1. -/
structure Params where
  /-- P_NUM_PROFILES, 1..16. -/
  numProfiles : Nat
  /-- P_BUF_SIZE, 1..65536. -/
  bufSize : Nat
  /-- P_NS_PER_TICK, at least 1 (R49). -/
  nsPerTick : Nat
  /-- P_HOST_BASE, the system address of host offset 0 (20_memory.md R72). -/
  hostBase : Nat
  /-- P_RS_DATA_LEVEL_A. -/
  rsDataLevelA : Bool
  /-- P_RS_DATA_LEVEL_B. -/
  rsDataLevelB : Bool
  /-- P_A_RW_READ_LEVEL. -/
  aRwReadLevel : Bool
  /-- P_B_READ_STROBE. -/
  bReadStrobe : ReadStrobe
  /-- P_HOLD_FLOOR_ON_WRITE. -/
  holdFloorOnWrite : Bool
  /-- P_RESYNC_MODE. -/
  resyncMode : ResyncMode
  deriving DecidableEq, Repr

/-- The ranges R7 gives the parameters that have one. -/
def Params.legal (p : Params) : Bool :=
  decide (1 ≤ p.numProfiles) && decide (p.numProfiles ≤ 16) &&
  decide (1 ≤ p.bufSize) && decide (p.bufSize ≤ 65536) && decide (1 ≤ p.nsPerTick)

/-- The system address of a host register (R7, R72). -/
def Params.hostAddress (p : Params) (off : Nat) : Nat := p.hostBase + off

/-- One less than P_NS_PER_TICK, which R7 leaves OPEN but at least 1 (log entry 3). -/
opaque nsPerTickPred : Nat

/-- P_HOST_BASE, which R7 leaves OPEN (log entry 3). -/
opaque hostBase : Nat

/-- The values R7 says this spec uses; the OPEN parameters stay opaque. -/
def standard : Params where
  numProfiles := 4
  bufSize := 65536
  nsPerTick := nsPerTickPred + 1
  hostBase := hostBase
  rsDataLevelA := true
  rsDataLevelB := true
  aRwReadLevel := false
  bReadStrobe := .enwr
  holdFloorOnWrite := true
  resyncMode := .immediate

/-- FREE VALUE (log entry 4): the nanoseconds that pass before the n-th read of the timebase (R166, R167). -/
opaque elapsed : Nat → Nat

/-- FREE VALUE (log entry 5): how many reads the n-th spin may make before the one that R176's fairness
puts at or past the deadline. -/
opaque spins : Nat → Nat

/-- FREE VALUE (log entry 6): what the bank and the device answer to the n-th READBANK (R163). -/
opaque bank : Nat → Word

/-- FREE VALUE (log entry 7): the bits that stand for undefined data pins at the n-th extraction (R221). -/
opaque undefBits : Nat → Byte

/-- FREE VALUE (log entry 8): the input `gpio_avail` at the n-th CREATE (R133). -/
opaque gpioAvail : Nat → Bool

/-- FREE VALUE (log entry 9): what BUF holds after the n-th reset at an index nothing has written (R54). -/
opaque bufByte : Nat → Nat → Byte

end Sys2Proof.Config
end

