-- ==== Sys2Proof/Machine/State.lean ====
section
/-! DEFINITION. The machine's state as plain data (10_state.md R30-R54), its faults and refusals, and
the machine right after reset. -/

namespace Sys2Proof.Machine

open Sys2Proof.Config (Params)

/-- Why a step stops with a fault. The spec's commands never fault (60_exceptions.md R257). -/
inductive Fault where
  /-- Raised by an aligned word access of the host at an offset outside the 256-byte host register space
  (R32, R71), which holds no register there. Safe: the model stops (log entry 13). -/
  | outsideHostSpace (off : Nat)
  deriving DecidableEq, Repr

/-- Why a step is refused. -/
inductive Refusal where
  /-- Raised by `exec` for an instruction that has no meaning yet; no arm raises it. Safe. -/
  | notModelled (mnemonic : String)
  /-- Raised by a host access that is not an aligned 32-bit word: "the model refuses it" (R74).
  Safe: the model stops. -/
  | hostAccess (bits off : Nat)
  /-- Raised where MONO_NS, `tl.sched` or a deadline would exceed 2^64 - 1: "The model refuses any
  state" (R177). Safe: the model stops. -/
  | timeRange
  deriving DecidableEq, Repr

/-! ## Profiles -/

/-- A pin number 0..27, or `none` for the spec's UNDEF (R14, R134). -/
abbrev Pin := Option (Fin 28)

/-- The protocol variant: A is 6800-style, B is 8080-style (R3). -/
inductive Variant where
  | a
  | b
  deriving DecidableEq, Repr

/-- Bits per cycle, `bpc`: 4 or 8 (R45). -/
inductive BusWidth where
  | w4
  | w8
  deriving DecidableEq, Repr

/-- A profile slot (R44). -/
structure Slot where
  valid : Bool
  d7 : Pin
  d6 : Pin
  d5 : Pin
  d4 : Pin
  d3 : Pin
  d2 : Pin
  d1 : Pin
  d0 : Pin
  rscd : Pin
  enwr : Pin
  rwrd : Pin
  variant : Variant
  tSetup : Word
  tClock : Word
  tRead : Word
  tProc : Word
  tHold : Word
  bpc : BusWidth
  deriving DecidableEq, Repr

/-- A slot after reset: not valid, its other fields unspecified by R54 and named in log entry 11. -/
def Slot.empty : Slot where
  valid := false
  d7 := none
  d6 := none
  d5 := none
  d4 := none
  d3 := none
  d2 := none
  d1 := none
  d0 := none
  rscd := none
  enwr := none
  rwrd := none
  variant := .a
  tSetup := 0
  tClock := 0
  tRead := 0
  tProc := 0
  tHold := 0
  bpc := .w4

/-! ## Host registers -/

/-- The staging registers: raw pin values, PROTO.VARIANT and timing constants (R32, R37-R39). -/
structure Staging where
  d7 : Word
  d6 : Word
  d5 : Word
  d4 : Word
  d3 : Word
  d2 : Word
  d1 : Word
  d0 : Word
  rscd : Word
  enwr : Word
  rwrd : Word
  variant : Variant
  tSetup : Word
  tClock : Word
  tRead : Word
  tProc : Word
  tHold : Word
  deriving DecidableEq, Repr

/-- The staging registers after reset (R32's reset column). -/
def Staging.reset : Staging where
  d7 := 0xFFFFFFFF
  d6 := 0xFFFFFFFF
  d5 := 0xFFFFFFFF
  d4 := 0xFFFFFFFF
  d3 := 0xFFFFFFFF
  d2 := 0xFFFFFFFF
  d1 := 0xFFFFFFFF
  d0 := 0xFFFFFFFF
  rscd := 0xFFFFFFFF
  enwr := 0xFFFFFFFF
  rwrd := 0xFFFFFFFF
  variant := .a
  tSetup := 0
  tClock := 0
  tRead := 0
  tProc := 0
  tHold := 0

/-- The result codes of 60_exceptions.md R250; 6..15 are reserved and never written. -/
inductive Result where
  | ok
  | deviceUnavailable
  | unsupportedOperation
  | illegalCommand
  | noProfile
  | badCount
  deriving DecidableEq, Repr

/-- The host registers that hold state (R32-R39). The others are views of other fields. -/
structure HostRegs where
  /-- CMD, the last accepted word (R33). -/
  cmd : Word
  /-- STATUS.BUSY (R34). -/
  busy : Bool
  /-- STATUS.LOST (R34). -/
  lost : Bool
  /-- STATUS.RESULT (R34, R250). -/
  result : Result
  /-- RDVAL[7:0]; bits 31:8 read 0 (R35). -/
  rdval : Byte
  /-- BUF_PTR.PTR; bits 31:16 read 0 (R36). -/
  ptr : BitVec 16
  staging : Staging
  deriving DecidableEq, Repr

/-- The host registers after reset (R32, R54). -/
def HostRegs.reset : HostRegs where
  cmd := 0
  busy := false
  lost := false
  result := .ok
  rdval := 0
  ptr := 0
  staging := Staging.reset

/-! ## Timeline, sequencer control and port -/

/-- The virtual timeline, one for all slots (R47). -/
structure Timeline where
  sched : Time
  timing : Word
  deriving DecidableEq, Repr

/-- A pair of bank masks: bits to clear and bits to set (R14, R51). -/
structure Masks where
  c : Word
  s : Word
  deriving DecidableEq, Repr

/-- A WAIT that has begun and not reached its deadline: the locals of its loop (41_timeline.md R171). -/
structure Spin where
  /-- The instant the WAIT spins to. -/
  deadline : Time
  /-- The MODEL's own: reads that may still fall short of it before fairness ends the spin (R176; log
  entry 5). -/
  left : Nat
  deriving DecidableEq, Repr

/-- The sequencer control state besides `busy` and CMD (R50, R51). -/
structure Control where
  /-- Micro-operations of the running command already performed: names the next one (R50). -/
  upc : Nat
  /-- The MODEL's own: sequencer steps of the running command already made, one per micro-operation and,
  in a WAIT, one per `Clock()` read (R167, R171; log entry 1). -/
  steps : Nat
  /-- The spin the micro-operation named by `upc` is in, if it is a WAIT that has begun (R171). -/
  spin : Option Spin
  /-- Byte or unit index. -/
  i : Nat
  /-- Group index. -/
  k : Nat
  /-- The shifting byte of a write (R191). -/
  b : Byte
  /-- The group value a write has on the lines (R190, R191). -/
  g : Byte
  /-- The read accumulator (R222). -/
  acc : Byte
  /-- The last READBANK answer (R220). -/
  v : Word
  /-- The transient masks (R51). -/
  masks : Masks
  /-- The staging registers as they stood when the command was accepted: what a CREATE latches, which no
  later staging write can change (R82; log entry 17). -/
  staged : Staging
  deriving DecidableEq, Repr

/-- The control state of an idle sequencer: nothing is held (R54, R226; log entry 20). -/
def Control.idle : Control where
  upc := 0
  steps := 0
  spin := none
  i := 0
  k := 0
  b := 0
  g := 0
  acc := 0
  v := 0
  masks := ⟨0, 0⟩
  staged := Staging.reset

/-- A pin mode (R160). -/
inductive PinMode where
  | input
  | output
  deriving DecidableEq, Repr

/-- A port transaction as the log TX records it (R160-R163). -/
inductive Txn where
  | mode (mask : Word) (m : PinMode)
  | clr (mask : Word)
  | set (mask : Word)
  | read (v : Word)
  deriving DecidableEq, Repr

/-- The GPIO bank as the master port sees it (R52). -/
structure Port where
  /-- OUT, the output levels. -/
  out : Word
  /-- DIR, 1 for output mode. -/
  dir : Word
  /-- TX, oldest transaction first. -/
  tx : List Txn
  deriving DecidableEq, Repr

/-! ## The model's own fields -/

/-- A supply of free values of one kind: values given ahead, then opaque ones counted by `used`. -/
structure Draws (α : Type) where
  next : List α
  used : Nat
  deriving DecidableEq, Repr

/-- The free values of 93_implementation_defined.md: Clock() draws and step latency (I4, I5) and how long
fairness lets a spin last (R176), READBANK answers (I3), bits of undefined pins (I2), `gpio_avail` (I8). -/
structure Env where
  elapsed : Draws Nat
  spins : Draws Nat
  bank : Draws Word
  undef : Draws Byte
  avail : Draws Bool
  deriving DecidableEq, Repr

/-- No free value is chosen ahead. -/
def Env.free : Env where
  elapsed := ⟨[], 0⟩
  spins := ⟨[], 0⟩
  bank := ⟨[], 0⟩
  undef := ⟨[], 0⟩
  avail := ⟨[], 0⟩

/-- What the host can do: read or write at an offset with an access of some width in bits, or pull
`rst_n` (R32, R74, R290). -/
inductive HostAct where
  | read (bits off : Nat)
  | write (bits off : Nat) (v : Word)
  | reset
  deriving DecidableEq, Repr

/-- A move of the host. It lands once the running command has made `after` sequencer steps, or as soon as
the sequencer is idle (log entry 1). -/
structure HostMove where
  after : Nat
  act : HostAct
  deriving DecidableEq, Repr

/-- The whole state. -/
structure State where
  /-- The host registers (R32). -/
  regs : HostRegs
  /-- The profile slots (R44). -/
  slots : List Slot
  /-- The virtual timeline (R47). -/
  tl : Timeline
  /-- MONO_NS (R49), as it was at the last read of the timebase (log entry 4). -/
  mono : Time
  /-- The sequencer control state (R50, R51). -/
  ctl : Control
  /-- BUF: the bytes written since reset, in canonical form (R70). -/
  buf : List Host.Cell
  /-- The MODEL's own: resets seen, the index of BUF's free bytes (log entry 9). -/
  bufEpoch : Nat
  /-- The GPIO bank (R52). -/
  port : Port
  /-- The MODEL's own: the named parameters (R7; log entry 2). -/
  params : Params
  /-- The MODEL's own: the supplies of free values (log entries 4, 5, 6, 7, 8). -/
  env : Env
  /-- The MODEL's own: the host's coming moves (log entry 1). -/
  script : List HostMove
  /-- The MODEL's own: offset and word of each host read so far, oldest first (log entry 18). -/
  reads : List (Nat × Word)
  deriving DecidableEq, Repr

/-- The machine right after power-on reset (R54, R290), with the parameter values of R7. -/
def State.reset : State where
  regs := HostRegs.reset
  slots := List.replicate Sys2Proof.Config.standard.numProfiles Slot.empty
  tl := ⟨0, 0⟩
  mono := 0
  ctl := Control.idle
  buf := []
  bufEpoch := 0
  port := ⟨0, 0, []⟩
  params := Sys2Proof.Config.standard
  env := Env.free
  script := []
  reads := []

end Sys2Proof.Machine
end

