-- ==== Sys2Proof/Machine/Operands.lean ====
section
/-! DEFINITION. Pin helpers, protocol conventions and the arithmetic of bytes on pins: 00_scope.md R14,
10_state.md R45, R46, 40_profile.md R131, R132, R134, R139, 42_write.md R191-R196, 43_read.md R221-R225. -/

namespace Sys2Proof.Machine

open Sys2Proof.Config (Params)

/-! ## Pins and masks -/

/-- `bit(p)` of R14: 0 for UNDEF (R140). -/
def pinBit : Pin → Word
  | none => 0
  | some i => 1#32 <<< i.val

/-- The union of two mask pairs (R14). -/
def Masks.or (x y : Masks) : Masks := ⟨x.c ||| y.c, x.s ||| y.s⟩

/-- `lvlMask(p, l)` of R14. -/
def lvlMask (p : Pin) (l : Bool) : Masks :=
  if l then ⟨0, pinBit p⟩ else ⟨pinBit p, 0⟩

/-- `norm(v)` of R134: the pin `sext(v)` names if that is in 0..27, else UNDEF. -/
def normPin (v : Word) : Pin :=
  if h : 0 ≤ v.toInt ∧ v.toInt ≤ 27 then some ⟨v.toInt.toNat, by omega⟩ else none

/-! ## Bus width -/

/-- `bpc` as a number (R45). -/
def BusWidth.bits : BusWidth → Nat
  | .w4 => 4
  | .w8 => 8

/-- `G = 8 / bpc`, the groups of a byte (R45). -/
def BusWidth.groups : BusWidth → Nat
  | .w4 => 2
  | .w8 => 1

/-- R45: 4 if `d[3]..d[0]` are all UNDEF, else 8. -/
def widthOf (d3 d2 d1 d0 : Pin) : BusWidth :=
  if d3 = none ∧ d2 = none ∧ d1 = none ∧ d0 = none then .w4 else .w8

/-- `d[k]` of a slot (R44). -/
def Slot.d (q : Slot) : Nat → Pin
  | 0 => q.d0
  | 1 => q.d1
  | 2 => q.d2
  | 3 => q.d3
  | 4 => q.d4
  | 5 => q.d5
  | 6 => q.d6
  | 7 => q.d7
  | _ => none

/-- The pin of bit `j` of a group: `d[8 - bpc + j]` (R46). -/
def Slot.groupPin (q : Slot) (j : Nat) : Pin := q.d (8 - q.bpc.bits + j)

/-- `dataMask`: the active data pins (R46). -/
def Slot.dataMask (q : Slot) : Word :=
  (List.range q.bpc.bits).foldl (fun m j => m ||| pinBit (q.groupPin j)) 0

/-- The three control lines, as CREATE makes them outputs (R133). -/
def Slot.ctrlMask (q : Slot) : Word := pinBit q.rscd ||| pinBit q.enwr ||| pinBit q.rwrd

/-- `prof[n].valid AND prof[n].rwrd != UNDEF`, the source's supportsRead (R41). -/
def Slot.canRead (q : Slot) : Bool := q.valid && q.rwrd.isSome

/-! ## Protocol conventions -/

/-- The order of the two writes of an APPLY (R164). -/
inductive Order where
  | clrThenSet
  | setThenClr
  deriving DecidableEq, Repr

/-- What the register-select line selects (R139). -/
inductive Kind where
  | data
  | cmdreg
  deriving DecidableEq, Repr

/-- The write strobe line (R131, R132). -/
def Slot.wstb (q : Slot) : Pin := q.enwr

/-- The read strobe line (R131, R132, R225). -/
def Slot.rstb (par : Params) (q : Slot) : Pin :=
  match q.variant, par.bReadStrobe with
  | .a, _ => q.enwr
  | .b, .enwr => q.enwr
  | .b, .rwrd => q.rwrd

/-- The strobe's asserted level: 1 in variant A, 0 in variant B (R131, R132). -/
def Slot.aLvl (q : Slot) : Bool :=
  match q.variant with
  | .a => true
  | .b => false

/-- The strobe's deasserted level (R131, R132). -/
def Slot.nLvl (q : Slot) : Bool :=
  match q.variant with
  | .a => false
  | .b => true

/-- The order in which an assertion's masks are written (R131, R132). -/
def Slot.assertOrder (q : Slot) : Order :=
  match q.variant with
  | .a => .clrThenSet
  | .b => .setThenClr

/-- The order in which a deassertion's masks are written (R131, R132). -/
def Slot.deassertOrder (q : Slot) : Order :=
  match q.variant with
  | .a => .setThenClr
  | .b => .clrThenSet

/-- The level of `rwrd` that means the device drives; variant B never uses it (R131, R132). -/
def devLvl (par : Params) : Bool := par.aRwReadLevel

/-- The level of `rwrd` that means the host drives (R131, R132). -/
def Slot.hostLvl (par : Params) (q : Slot) : Bool :=
  match q.variant with
  | .a => !par.aRwReadLevel
  | .b => true

/-- The level of `rscd` (R139). -/
def Slot.rsLvl (par : Params) (q : Slot) (kind : Kind) : Bool :=
  let data := match q.variant with
    | .a => par.rsDataLevelA
    | .b => par.rsDataLevelB
  match kind with
  | .data => data
  | .cmdreg => !data

/-! ## Masks and delays of a write -/

/-- The address and direction masks of a write (R196). -/
def Slot.writeSetup (par : Params) (q : Slot) (kind : Kind) : Masks :=
  (lvlMask q.rscd (q.rsLvl par kind)).or (lvlMask q.rwrd (q.hostLvl par))

/-- `g = b[7 : 8 - bpc]`: the top `bpc` bits of what is left of the byte (R191). -/
def Slot.topGroup (q : Slot) (b : Byte) : Byte := b >>> (8 - q.bpc.bits)

/-- `b <- (b << bpc)[7:0]` (R191). -/
def Slot.shiftOut (q : Slot) (b : Byte) : Byte := b <<< q.bpc.bits

/-- `dataMasks(q, g)` (R192). -/
def Slot.dataMasks (q : Slot) (g : Byte) : Masks :=
  (List.range q.bpc.bits).foldl
    (fun m j => m.or (lvlMask (q.groupPin j) (g.getLsbD j))) ⟨0, 0⟩

/-- The assertion masks (R193). -/
def Slot.assertMasks (q : Slot) (g : Byte) : Masks :=
  (q.dataMasks g).or (lvlMask q.wstb q.aLvl)

/-- The deassertion masks (R194). -/
def Slot.deassertMasks (q : Slot) (g : Byte) : Masks :=
  (q.dataMasks g).or (lvlMask q.wstb q.nLvl)

/-- `max` of two delays. -/
def maxDelay (x y : Word) : Word := if x.toNat < y.toNat then y else x

/-- The inter-bit delay before the hold floor: `t_proc` after a byte's last group, else `t_clock`
(R195, R223). -/
def Slot.gap (q : Slot) (k : Nat) : Word :=
  if k + 1 = q.bpc.groups then q.tProc else q.tClock

/-- `dW(q, k)`, the delay after a write's deassertion (R195). -/
def Slot.dW (par : Params) (q : Slot) (k : Nat) : Word :=
  if par.holdFloorOnWrite then maxDelay (q.gap k) q.tHold else q.gap k

/-! ## Masks, sampling and delays of a read -/

/-- The address masks of a read; variant B holds `rwrd` at its idle level too (R220). -/
def Slot.readSetup (par : Params) (q : Slot) (kind : Kind) : Masks :=
  (lvlMask q.rscd (q.rsLvl par kind)).or
    (match q.variant with
      | .a => ⟨0, 0⟩
      | .b => lvlMask q.rwrd (q.hostLvl par))

/-- `bitval(pin)`: the sampled bit, or a free bit for UNDEF (R221). -/
def bitval (p : Pin) (v : Word) (free : Bool) : Bool :=
  match p with
  | some i => v.getLsbD i.val
  | none => free

/-- `extract(q, v)`, the free bits of undefined pins taken from `u` (R221). -/
def Slot.extract (q : Slot) (v : Word) (u : Byte) : Byte :=
  (List.range q.bpc.bits).foldl
    (fun x j => x ||| ((BitVec.ofBool (bitval (q.groupPin j) v (u.getLsbD j))).setWidth 8 <<< j)) 0

/-- `((acc << bpc) | bits)[7:0]` (R220, R222). -/
def Slot.accumulate (q : Slot) (acc bits : Byte) : Byte := (acc <<< q.bpc.bits) ||| bits

/-- `dR(q, k)`, the delay after a read's deassertion (R223). -/
def Slot.dR (q : Slot) (k : Nat) : Word := maxDelay (q.gap k) q.tHold

/-! ## Latching a profile -/

/-- The profile CREATE makes of the staging registers (R133, R134, R45). -/
def Staging.profile (r : Staging) : Slot where
  valid := true
  d7 := normPin r.d7
  d6 := normPin r.d6
  d5 := normPin r.d5
  d4 := normPin r.d4
  d3 := normPin r.d3
  d2 := normPin r.d2
  d1 := normPin r.d1
  d0 := normPin r.d0
  rscd := normPin r.rscd
  enwr := normPin r.enwr
  rwrd := normPin r.rwrd
  variant := r.variant
  tSetup := r.tSetup
  tClock := r.tClock
  tRead := r.tRead
  tProc := r.tProc
  tHold := r.tHold
  bpc := widthOf (normPin r.d3) (normPin r.d2) (normPin r.d1) (normPin r.d0)

end Sys2Proof.Machine
end

