-- ==== Sys2Proof/Machine/Flags.lean ====
section
/-! DEFINITION. The status views (10_state.md R34, R37, R40, R41, R53) and the result codes
(60_exceptions.md R250). There are no condition codes (R53). -/

namespace Sys2Proof.Machine

/-- The code of a result (R250). -/
def Result.code : Result → BitVec 4
  | .ok => 0
  | .deviceUnavailable => 1
  | .unsupportedOperation => 2
  | .illegalCommand => 3
  | .noProfile => 4
  | .badCount => 5

/-- STATUS: BUSY in bit 0, LOST in bit 1, RESULT in bits 7:4, others 0 (R32, R34). -/
def HostRegs.status (r : HostRegs) : Word :=
  0#24 ++ (r.result.code ++ (0#2 ++ (BitVec.ofBool r.lost ++ BitVec.ofBool r.busy)))

/-- PROTO: VARIANT in bit 0, others 0 (R37). -/
def Variant.proto : Variant → Word
  | .a => 0
  | .b => 1

/-- What a write of PROTO selects: only bit 0 is taken (R37). -/
def protoVariant (v : Word) : Variant := if v.getLsbD 0 then .b else .a

/-- `prof[p]` (R44). -/
def State.slotAt (s : State) (p : Nat) : Slot := (s.slots[p]?).getD Slot.empty

/-- PROF_STATUS: bit n is VALID and bit 16+n is CANREAD of slot n < P_NUM_PROFILES, others 0 (R41). -/
def State.profStatus (s : State) : Word :=
  (List.range s.params.numProfiles).foldl
    (fun w n => w ||| ((BitVec.ofBool (s.slotAt n).valid).setWidth 32 <<< n)
      ||| ((BitVec.ofBool (s.slotAt n).canRead).setWidth 32 <<< (16 + n))) 0

/-- TL_SCHED_LO (R40). -/
def State.schedLo (s : State) : Word := s.tl.sched.extractLsb' 0 32

/-- TL_SCHED_HI (R40). -/
def State.schedHi (s : State) : Word := s.tl.sched.extractLsb' 32 32

/-- The output signal `busy` (R260). -/
def State.busyOut (s : State) : Bool := s.regs.busy

end Sys2Proof.Machine
end

