-- ==== Sys2Proof/Machine/Ops.lean ====
section
/-! DEFINITION. The named operations on the state: BUF (20_memory.md R70, 00_scope.md R12), the port
transactions (41_timeline.md R160-R163), the timebase and the virtual timeline (R166-R177), acceptance
(10_state.md R33), completion (00_scope.md R13, 60_exceptions.md R256) and reset (R290-R292).

Completion is this machine's only exception entry: `finish` saves no state, changes no mode and jumps to
no vector (R256), and there is no return from it (R258). -/

namespace Sys2Proof.Machine

/-- What a step answers. -/
abbrev StepOutcome := Host.Outcome State Fault Refusal

/-- Goes on where a next state was answered. -/
def thenRun (o : StepOutcome) (f : State → StepOutcome) : StepOutcome :=
  match o with
  | .next t => f t
  | .fault x => .fault x
  | .refused x => .refused x

/-! ## BUF -/

/-- What an index that is not listed reads as: no value anyone wrote (log entry 9). -/
def Memory.unlisted : Option Byte := none

/-- The byte listed at an index. -/
def Memory.read (m : List Host.Cell) (a : Nat) : Option Byte :=
  match m with
  | [] => Memory.unlisted
  | (b, w) :: r => if a = b then some w else Memory.read r a

/-- The list with the byte at an index replaced or put in its place. -/
def Memory.write (m : List Host.Cell) (a : Nat) (v : Byte) : List Host.Cell :=
  match m with
  | [] => [(a, v)]
  | (b, w) :: r =>
    if a < b then (a, v) :: (b, w) :: r
    else if a = b then (a, v) :: r
    else (b, w) :: Memory.write r a v

/-- The listed indices strictly rise. -/
def Memory.rising : List Host.Cell → Bool
  | [] => true
  | [_] => true
  | (a, _) :: (b, w) :: r => decide (a < b) && Memory.rising ((b, w) :: r)

/-- The one canonical form: rising, and no entry equal to what an unlisted index reads as. -/
def Memory.wf (m : List Host.Cell) : Bool :=
  Memory.rising m && m.all fun c => decide (some c.2 ≠ Memory.unlisted)

/-- `MemRead(i, 1)`: what BUF holds at an index; a free byte where nothing was written since reset
(R12, R54, R70). -/
def State.bufRead (s : State) (i : Nat) : Byte :=
  (Memory.read s.buf i).getD (Sys2Proof.Config.bufByte s.bufEpoch i)

/-- `MemWrite(i, 1, v)` (R12). -/
def State.bufWrite (s : State) (i : Nat) (v : Byte) : State :=
  { s with buf := Memory.write s.buf i v }

/-! ## Free values -/

/-- The next free value of a supply. -/
def Draws.value {α : Type} (free : Nat → α) (d : Draws α) : α :=
  match d.next with
  | x :: _ => x
  | [] => free d.used

/-- The supply after that value was taken. -/
def Draws.rest {α : Type} (d : Draws α) : Draws α :=
  match d.next with
  | _ :: r => { d with next := r }
  | [] => { d with used := d.used + 1 }

/-! ## Port transactions -/

/-- `MODE(mask, m)` (R160). -/
def State.portMode (s : State) (mask : Word) (m : PinMode) : State :=
  { s with port :=
    { out := s.port.out
      dir := match m with
        | .output => s.port.dir ||| mask
        | .input => s.port.dir &&& ~~~mask
      tx := s.port.tx ++ [.mode mask m] } }

/-- `CLR(mask)` (R161). -/
def State.portClr (s : State) (mask : Word) : State :=
  { s with port :=
    { out := s.port.out &&& ~~~mask, dir := s.port.dir, tx := s.port.tx ++ [.clr mask] } }

/-- `SET(mask)` (R162). -/
def State.portSet (s : State) (mask : Word) : State :=
  { s with port :=
    { out := s.port.out ||| mask, dir := s.port.dir, tx := s.port.tx ++ [.set mask] } }

/-- `v <- READBANK()`: the answer is a free value, the pins do not change (R163). -/
def State.portRead (s : State) : State :=
  let v := s.env.bank.value Sys2Proof.Config.bank
  { s with
    port := { s.port with tx := s.port.tx ++ [.read v] }
    ctl := { s.ctl with v := v }
    env := { s.env with bank := s.env.bank.rest } }

/-! ## Time -/

/-- `tl.timing <- d` (R170). -/
def State.advance (s : State) (d : Word) : State :=
  { s with tl := { s.tl with timing := d } }

/-- The timebase moves on to `ns`, refused beyond 64 bits (R49, R177). -/
def State.setMono (s : State) (ns : Nat) : Option State :=
  if ns < timeLimit then some { s with mono := BitVec.ofNat 64 ns } else none

/-- Moves to the next elapsed time of the supply. -/
def State.dropElapsed (s : State) : State :=
  { s with env := { s.env with elapsed := s.env.elapsed.rest } }

/-- The free number of nanoseconds before the next read of the timebase (R166, R167). -/
def State.nextElapsed (s : State) : Nat := s.env.elapsed.value Sys2Proof.Config.elapsed

/-- `Clock()`, the answer not below `least`: any value not below the earlier ones (R49, R166; log entry 4). -/
def State.clockFrom (s : State) (least : Nat) : Option State :=
  s.dropElapsed.setMono (max (s.mono.toNat + s.nextElapsed) least)

/-- `Clock()` (R166). -/
def State.clockRead (s : State) : Option State := s.clockFrom 0

/-- `tl.sched <- t`, with `t` in range. -/
def State.setSched (s : State) (t : Nat) : State :=
  { s with tl := { s.tl with sched := BitVec.ofNat 64 t } }

/-- The WAIT is in a spin, or in none. -/
def State.setSpin (s : State) (x : Option Spin) : State :=
  { s with ctl := { s.ctl with spin := x } }

/-- Moves to the next length of a spin. -/
def State.dropSpins (s : State) : State :=
  { s with env := { s.env with spins := s.env.spins.rest } }

/-- WAIT's loop is reached with `now` just read: it breaks at once, or the spin begins (R171). -/
def State.beginSpin (s : State) (deadline : Nat) : State :=
  if deadline ≤ s.mono.toNat then s.setSched deadline
  else s.dropSpins.setSpin
    (some ⟨BitVec.ofNat 64 deadline, s.env.spins.value Sys2Proof.Config.spins⟩)

/-- The overrun branch of WAIT (R171, R172): resynchronise, and under REWAIT wait the increment again, with
`tl.sched` at `now` while it spins. -/
def State.overrun (s : State) : StepOutcome :=
  match s.params.resyncMode with
  | .immediate => .next (s.setSched s.mono.toNat)
  | .rewait =>
    let deadline := s.mono.toNat + s.tl.timing.toNat
    if deadline < timeLimit then .next ((s.setSched s.mono.toNat).beginSpin deadline)
    else .refused .timeRange

/-- The first step of `WAIT()`, up to and with its first `Clock()` read (R171, R172, R177). -/
def State.waitStart (s : State) : StepOutcome :=
  let deadline := s.tl.sched.toNat + s.tl.timing.toNat
  if deadline < timeLimit then
    match (s.setSpin none).clockRead with
    | none => .refused .timeRange
    | some t => if deadline < t.mono.toNat then t.overrun else .next (t.beginSpin deadline)
  else .refused .timeRange

/-- One more step of a spin: one `Clock()` read and the test it serves; the last one commits `tl.sched`
(R171). Where fairness ends the spin the read is at or past the deadline (R176; log entry 5). -/
def State.spinRead (s : State) : StepOutcome :=
  match s.ctl.spin with
  | none => .next s
  | some x =>
    match s.clockFrom (if x.left = 0 then x.deadline.toNat else 0) with
    | none => .refused .timeRange
    | some t =>
      if x.deadline.toNat ≤ t.mono.toNat then .next ((t.setSched x.deadline.toNat).setSpin none)
      else .next (t.setSpin (some ⟨x.deadline, x.left - 1⟩))

/-- A step in which nothing moves but the timebase: one rising edge of `clk` (R49, R266). -/
def State.idleTick (s : State) : StepOutcome :=
  match s.setMono (s.mono.toNat + s.params.nsPerTick) with
  | none => .refused .timeRange
  | some t => .next t

/-! ## Acceptance, completion, reset -/

/-- A CMD write is accepted (R33). -/
def State.accept (s : State) (w : Word) : State :=
  { s with regs := { s.regs with cmd := w, busy := true, lost := false } }

/-- The accepted command begins: nothing of an earlier command's control state is left (R50, R51), and
the staging registers are what they are now (R82). -/
def State.begin (s : State) : State :=
  { s with
    regs := { s.regs with busy := true }
    ctl := { Control.idle with staged := s.regs.staging } }

/-- `finish(code)` (R13, R256); the loop counters and transient masks are discarded (R51, R226). -/
def State.finish (s : State) (code : Result) : State :=
  { s with regs := { s.regs with busy := false, result := code }, ctl := Control.idle }

/-- A host write is dropped: LOST is set (R33, R34, R36). -/
def State.drop (s : State) : State :=
  { s with regs := { s.regs with lost := true } }

/-- Reset (R54, R290): the command running is abandoned, OUT, DIR and TX stay (R291, R292), BUF holds any
value (log entry 9). The environment is not the block's to reset. -/
def State.resetNow (s : State) : State :=
  { s with
    regs := HostRegs.reset
    slots := List.replicate s.params.numProfiles Slot.empty
    tl := ⟨0, 0⟩
    mono := 0
    ctl := Control.idle
    buf := []
    bufEpoch := s.bufEpoch + 1 }

/-! ## Profile slots -/

/-- `prof[p] <- q` (R133). -/
def State.setSlot (s : State) (p : Nat) (q : Slot) : State :=
  { s with slots := s.slots.set p q }

/-- `prof[p].valid <- 0` (R138). -/
def State.invalidate (s : State) (p : Nat) : State :=
  s.setSlot p { s.slotAt p with valid := false }

end Sys2Proof.Machine
end

