-- ==== Sys2Proof/Machine/Sequencer.lean ====
section
/-! DEFINITION. Micro-operation programs and how the sequencer runs them: 10_state.md R50, R51,
20_memory.md R76, R79, 41_timeline.md R160-R172. A program is a flat list; a line of the spec's
pseudocode without a micro-operation takes no step of its own and belongs to the step of the next
micro-operation (42_write.md, 43_read.md, introductions). -/

namespace Sys2Proof.Machine

/-- Where a write takes its bytes from: `byteAt` of R205, R206. -/
inductive ByteSource where
  | buffer
  | imm (v : Byte)
  deriving DecidableEq, Repr

/-- A line of a program without a micro-operation. -/
inductive Local where
  /-- `if gpio_avail = 0: raise DEVICE_UNAVAILABLE` (R133). -/
  | needGpio
  /-- `prof[p] <- q` (R133). -/
  | latch (p : Nat) (q : Slot)
  /-- `prof[p].valid <- 0` (R138). -/
  | invalidate (p : Nat)
  /-- The transient masks of a phase (R196, R220). -/
  | masks (m : Masks)
  /-- `b <- byteAt(i)` (R190). -/
  | loadByte (i : Nat) (src : ByteSource)
  /-- Group `k` of a write: `g`, the shifted `b` and the assertion masks (R190-R193). -/
  | takeGroup (q : Slot) (k : Nat)
  /-- The deassertion masks (R194). -/
  | deassert (q : Slot)
  /-- `acc <- 0` for unit `i` of a read (R220). -/
  | startUnit (i : Nat)
  /-- Group `k` of a read begins (R220). -/
  | readGroup (k : Nat)
  /-- `acc <- ((acc << bpc) | extract(q, v))[7:0]` (R220-R222). -/
  | accumulate (q : Slot)
  /-- `sink(i, acc)` of RDDATA: `BUF[i] <- acc` (R228). -/
  | sinkBuf (i : Nat)
  /-- `RDVAL <- zext_32(r)` of RDREG (R229). -/
  | loadRdval
  deriving DecidableEq, Repr

/-- A micro-operation other than WAIT: one sequencer step (R167). -/
inductive Op where
  | mode (mask : Word) (m : PinMode)
  /-- CLR of a constant mask, as DRIVE makes it (R165). -/
  | clr (mask : Word)
  /-- SET of a constant mask, as DRIVE makes it (R165). -/
  | set (mask : Word)
  /-- CLR of the transient clear mask, one half of an APPLY (R164). -/
  | clrMasks
  /-- SET of the transient set mask, one half of an APPLY (R164). -/
  | setMasks
  | adv (d : Word)
  | readBank
  | finish (code : Result)
  deriving DecidableEq, Repr

/-- An item of a program. -/
inductive Item where
  | loc (l : Local)
  | op (o : Op)
  | wait
  deriving DecidableEq, Repr

/-! ## Effects -/

/-- The byte a source gives for index `i`; BUF is read when byte `i` starts (R205). -/
def State.byteAt (s : State) (src : ByteSource) (i : Nat) : Byte :=
  match src with
  | .buffer => s.bufRead i
  | .imm v => v

/-- `gpio_avail` is sampled; without it the command ends there (R133, R250). -/
def State.needGpio (s : State) : State :=
  let t : State := { s with env := { s.env with avail := s.env.avail.rest } }
  if s.env.avail.value Sys2Proof.Config.gpioAvail then t else t.finish .deviceUnavailable

/-- The transient masks take a value (R51). -/
def State.setMasks (s : State) (m : Masks) : State :=
  { s with ctl := { s.ctl with masks := m } }

/-- Byte `i` starts (R190). -/
def State.loadByte (s : State) (i : Nat) (src : ByteSource) : State :=
  { s with ctl := { s.ctl with i := i, b := s.byteAt src i } }

/-- Group `k` of a write starts (R190-R193). -/
def State.takeGroup (s : State) (q : Slot) (k : Nat) : State :=
  { s with ctl :=
    { s.ctl with
      k := k
      g := q.topGroup s.ctl.b
      b := q.shiftOut s.ctl.b
      masks := q.assertMasks (q.topGroup s.ctl.b) } }

/-- The masks of a deassertion: the same data masks, the strobe at its other level (R194). -/
def State.deassert (s : State) (q : Slot) : State :=
  s.setMasks (q.deassertMasks s.ctl.g)

/-- Unit `i` of a read starts (R220). -/
def State.startUnit (s : State) (i : Nat) : State :=
  { s with ctl := { s.ctl with i := i, acc := 0 } }

/-- Group `k` of a read starts (R220). -/
def State.readGroup (s : State) (k : Nat) : State :=
  { s with ctl := { s.ctl with k := k } }

/-- The sampled group is shifted into the accumulator; bits of UNDEF pins are free (R221, R222). -/
def State.accumulate (s : State) (q : Slot) : State :=
  let u := s.env.undef.value Sys2Proof.Config.undefBits
  { s with
    ctl := { s.ctl with acc := q.accumulate s.ctl.acc (q.extract s.ctl.v u) }
    env := { s.env with undef := s.env.undef.rest } }

/-- `RDVAL <- zext_32(r)` (R229, R35). -/
def State.loadRdval (s : State) : State :=
  { s with regs := { s.regs with rdval := s.ctl.acc } }

/-- What a line without a micro-operation computes. -/
def localEffect (l : Local) (s : State) : State :=
  match l with
  | .needGpio => s.needGpio
  | .latch p q => s.setSlot p q
  | .invalidate p => s.invalidate p
  | .masks m => s.setMasks m
  | .loadByte i src => s.loadByte i src
  | .takeGroup q k => s.takeGroup q k
  | .deassert q => s.deassert q
  | .startUnit i => s.startUnit i
  | .readGroup k => s.readGroup k
  | .accumulate q => s.accumulate q
  | .sinkBuf i => s.bufWrite i s.ctl.acc
  | .loadRdval => s.loadRdval

/-- What a micro-operation does. -/
def opEffect (o : Op) (s : State) : State :=
  match o with
  | .mode mask m => s.portMode mask m
  | .clr mask => s.portClr mask
  | .set mask => s.portSet mask
  | .clrMasks => s.portClr s.ctl.masks.c
  | .setMasks => s.portSet s.ctl.masks.s
  | .adv d => s.advance d
  | .readBank => s.portRead
  | .finish code => s.finish code

/-- A step of the running command is made: the position moves on by one micro-operation, but not while a
WAIT spins (R50, R171). -/
def State.bumpUpc (s : State) : State :=
  if s.regs.busy then
    { s with ctl :=
      { s.ctl with
        upc := if s.ctl.spin.isSome then s.ctl.upc else s.ctl.upc + 1
        steps := s.ctl.steps + 1 } }
  else s

/-- Applies a change only while a command runs: after `raise X` no further line of the command has an
effect (R13). -/
def State.whileBusy (s : State) (f : State → State) : State := if s.regs.busy then f s else s

/-- The number of steps at which the host's next move lands, if one is to come. -/
def State.stop (s : State) : Option Nat := s.script.head?.map HostMove.after

/-- A host move that waits for a number of steps lands here: the running command has made as many. -/
def State.dueAt (s : State) (stop : Option Nat) : Bool :=
  match stop with
  | none => false
  | some n => decide (n ≤ s.ctl.steps) && s.regs.busy

/-- The host's next move lands here. -/
def State.due (s : State) : Bool := s.dueAt s.stop

/-! ## Running a program -/

/-- A spin goes on, one step per `Clock()` read, to its end or until a host move lands between two reads
(R79, R171). -/
def spinTo (stop : Option Nat) : Nat → State → StepOutcome
  | 0, s => thenRun s.spinRead fun t => .next t.bumpUpc
  | n + 1, s => thenRun s.spinRead fun t =>
    if t.ctl.spin.isSome && !t.bumpUpc.dueAt stop then spinTo stop n t.bumpUpc else .next t.bumpUpc

/-- The spin the state is in, if any, goes on. -/
def State.spinOn (s : State) (stop : Option Nat) : StepOutcome :=
  match s.ctl.spin with
  | none => .next s
  | some x => if s.dueAt stop then .next s else spinTo stop x.left s

/-- `WAIT()` to its end, or until a host move lands in it (R171, R172). -/
def State.waitTo (s : State) (stop : Option Nat) : StepOutcome :=
  thenRun s.waitStart fun t => t.bumpUpc.spinOn stop

/-- `WAIT()` from end to end. -/
def State.wait (s : State) : StepOutcome := s.waitTo none

/-- Runs a program to its end, or until a host move lands between two steps: not before the number of
steps `stop` (R76, R79; log entry 1). A line without a micro-operation is performed with the step after it;
where that is a WAIT's, with the first of the WAIT's steps (DESIGN CHOICE, log entry 17). -/
def runTo (stop : Option Nat) : List Item → State → StepOutcome
  | [], s => .next s
  | .loc l :: r, s => runTo stop r (s.whileBusy (localEffect l))
  | .op o :: r, s =>
    let t := s.whileBusy fun u => (opEffect o u).bumpUpc
    if t.dueAt stop then .next t else runTo stop r t
  | .wait :: r, s =>
    if s.regs.busy then
      thenRun (s.waitTo stop) fun u => if u.dueAt stop then .next u else runTo stop r u
    else runTo stop r s

/-- Runs a program to its end, or until the host's next move lands. No item changes the script. -/
def run (items : List Item) (s : State) : StepOutcome := runTo s.stop items s

/-- What is left of a program after its first `n` micro-operations (R50). -/
def dropOps : Nat → List Item → List Item
  | 0, r => r
  | _ + 1, [] => []
  | n + 1, .loc _ :: r => dropOps (n + 1) r
  | n + 1, .op _ :: r => dropOps n r
  | n + 1, .wait :: r => dropOps n r

/-- Goes on with a program whose first `s.ctl.upc` micro-operations are performed, the next of them not
begun or a WAIT in a spin (R50). -/
def runFrom (items : List Item) (s : State) : StepOutcome :=
  thenRun (s.spinOn s.stop) fun u => if u.due then .next u else run (dropOps u.ctl.upc items) u

/-- Starts the program of an accepted command (R105). -/
def State.launch (s : State) (items : List Item) : StepOutcome :=
  if s.begin.due then .next s.begin else run items s.begin

/-- The number of micro-operations of a program. -/
def countOps : List Item → Nat
  | [] => 0
  | .loc _ :: r => countOps r
  | .op _ :: r => countOps r + 1
  | .wait :: r => countOps r + 1

/-! ## Pieces of programs -/

/-- `APPLY` of masks already computed: two writes in the named order (R164). -/
def applyOps : Order → List Item
  | .clrThenSet => [.op .clrMasks, .op .setMasks]
  | .setThenClr => [.op .setMasks, .op .clrMasks]

/-- `APPLY(c, s, order)` with constant masks (R164). -/
def applyItems (m : Masks) (o : Order) : List Item := .loc (.masks m) :: applyOps o

/-- `DRIVE(pin, l)`: one write of a defined pin, none for UNDEF (R165). -/
def driveItems (p : Pin) (l : Bool) : List Item :=
  match p with
  | none => []
  | some _ => if l then [.op (.set (pinBit p))] else [.op (.clr (pinBit p))]

/-- `finish(code)` with no micro-operation before it: how a failed check ends (R13, R252). -/
def finishOnly (code : Result) : List Item := [.op (.finish code)]

/-- R105's check 2, before a row's own program: PROF names a slot that exists. -/
def withSlot (p : Nat) (s : State) (items : List Item) : List Item :=
  if s.params.numProfiles ≤ p then finishOnly .illegalCommand else items

end Sys2Proof.Machine
end

