-- ==== Sys2Proof/Machine/Profile.lean ====
section
/-! DEFINITION. NOP, CREATE and RELEASE (40_profile.md R130, R133, R138), and the end of an illegal word
(30_encoding.md R104). -/

namespace Sys2Proof.Machine

open Sys2Proof.Config (Params)

/-- The program of NOP (R130). -/
def nopProgram : List Item := finishOnly .ok

/-- NOP (R130). -/
def execNop (s : State) : StepOutcome := s.launch nopProgram

/-- The program CREATE runs to make slot `p` the profile `q` (R133). -/
def createItems (par : Params) (p : Nat) (q : Slot) : List Item :=
  [.loc .needGpio, .loc (.latch p q)]
    ++ driveItems q.wstb q.nLvl
    ++ driveItems q.rwrd (q.hostLvl par)
    ++ [.op (.mode q.ctrlMask .output), .op (.mode q.dataMask .input), .op (.finish .ok)]

/-- The profile a CREATE in progress makes, of the staging registers at its acceptance (R82, R133; log
entry 17). -/
def State.creating (s : State) : Slot := s.ctl.staged.profile

/-- The program of CREATE (R133). -/
def createProgram (p : Nat) (s : State) : List Item :=
  withSlot p s (createItems s.params p s.creating)

/-- CREATE p (R133, R134, R136). -/
def execCreate (p : Nat) (s : State) : StepOutcome := s.launch (createProgram p s.begin)

/-- The program of RELEASE (R138). -/
def releaseProgram (p : Nat) (s : State) : List Item :=
  withSlot p s
    (if (s.slotAt p).valid then [.loc (.invalidate p), .op (.finish .ok)]
     else finishOnly .noProfile)

/-- RELEASE p (R138). -/
def execRelease (p : Nat) (s : State) : StepOutcome := s.launch (releaseProgram p s)

/-- The program of a word that is no command (R104). -/
def illegalProgram : List Item := finishOnly .illegalCommand

/-- A word that is no command: ILLEGAL_COMMAND and nothing else (R104, R105). -/
def execIllegal (s : State) : StepOutcome := s.launch illegalProgram

end Sys2Proof.Machine
end

