-- ==== Sys2Proof/Machine/Read.lean ====
section
/-! DEFINITION. The read sequence and RDDATA, RDREG (43_read.md R220-R229). -/

namespace Sys2Proof.Machine

open Sys2Proof.Config (Params)

/-- Where a read puts its bytes: `sink` of R228, R229. -/
inductive Sink where
  | buffer
  | rdval
  deriving DecidableEq, Repr

/-- One bit-group of a read: the sample and the deassertion stand in one phase (R220 step 2, R224). -/
def readGroupItems (par : Params) (q : Slot) (k : Nat) : List Item :=
  [.loc (.readGroup k), .wait]
    ++ applyItems (lvlMask (q.rstb par) q.aLvl) q.assertOrder
    ++ [.op (.adv q.tRead), .wait, .op .readBank, .loc (.accumulate q), .op (.adv q.tClock)]
    ++ applyItems (lvlMask (q.rstb par) q.nLvl) q.deassertOrder
    ++ [.op (.adv (q.dR k))]

/-- What ends a unit: RDDATA stores it; RDREG keeps it in the accumulator (R228, R229). DESIGN CHOICE (log
entry 17): where a WAIT of the next unit follows, `BUF[i]` is written with that WAIT's first `Clock()`
read, so a host read inside its spin sees the new byte beside the old `tl.sched`. -/
def sinkItems : Sink → Nat → List Item
  | .buffer, i => [.loc (.sinkBuf i)]
  | .rdval, _ => []

/-- One unit of a read (R220 step 2). -/
def readUnit (par : Params) (q : Slot) (snk : Sink) (i : Nat) : List Item :=
  .loc (.startUnit i)
    :: (List.range q.bpc.groups).flatMap (readGroupItems par q)
    ++ sinkItems snk i

/-- The lines after the read sequence: RDREG writes RDVAL (R229). -/
def readEnd : Sink → List Item
  | .buffer => [.op (.finish .ok)]
  | .rdval => [.loc .loadRdval, .op (.finish .ok)]

/-- Step 1's write of the direction line, in variant A only (R220, R226). -/
def readDirection (par : Params) (q : Slot) : List Item :=
  match q.variant with
  | .a => driveItems q.rwrd (devLvl par)
  | .b => []

/-- `READ(q, kind, n, sink)` (R220). -/
def readItems (par : Params) (q : Slot) (kind : Kind) (n : Nat) (snk : Sink) : List Item :=
  readDirection par q
    ++ .wait :: applyItems (q.readSetup par kind) q.assertOrder
    ++ [.op (.adv q.tSetup)]
    ++ (List.range n).flatMap (readUnit par q snk)
    ++ driveItems q.rwrd (q.hostLvl par)
    ++ readEnd snk

/-- The program of RDDATA (R228, checks in R252's order). -/
def rddataProgram (p n : Nat) (s : State) : List Item :=
  withSlot p s
    (if (s.slotAt p).valid then
      if (s.slotAt p).rwrd = none then finishOnly .unsupportedOperation
      else if s.params.bufSize < n then finishOnly .badCount
      else readItems s.params (s.slotAt p) .data n .buffer
    else finishOnly .noProfile)

/-- RDDATA p, n (R228). -/
def execRddata (p n : Nat) (s : State) : StepOutcome := s.launch (rddataProgram p n s)

/-- The program of RDREG (R229). -/
def rdregProgram (p : Nat) (s : State) : List Item :=
  withSlot p s
    (if (s.slotAt p).valid then
      if (s.slotAt p).rwrd = none then finishOnly .unsupportedOperation
      else readItems s.params (s.slotAt p) .cmdreg 1 .rdval
    else finishOnly .noProfile)

/-- RDREG p (R229). -/
def execRdreg (p : Nat) (s : State) : StepOutcome := s.launch (rdregProgram p s)

end Sys2Proof.Machine
end

