-- ==== Sys2Proof/Machine/Write.lean ====
section
/-! DEFINITION. The write sequence and WRDATA, WRCMD (42_write.md R190-R206). -/

namespace Sys2Proof.Machine

open Sys2Proof.Config (Params)

/-- One bit-group of a write (R190 step 3). -/
def writeGroup (par : Params) (q : Slot) (k : Nat) : List Item :=
  [.loc (.takeGroup q k), .wait]
    ++ applyOps q.assertOrder
    ++ [.op (.adv q.tClock), .wait, .loc (.deassert q)]
    ++ applyOps q.deassertOrder
    ++ [.op (.adv (q.dW par k))]

/-- One byte of a write, most significant group first (R190 step 3, R191). -/
def writeByte (par : Params) (q : Slot) (src : ByteSource) (i : Nat) : List Item :=
  .loc (.loadByte i src) :: (List.range q.bpc.groups).flatMap (writeGroup par q)

/-- `WRITE(q, kind, n, byteAt)` (R190). -/
def writeItems (par : Params) (q : Slot) (kind : Kind) (n : Nat) (src : ByteSource) : List Item :=
  [.loc (.masks (q.writeSetup par kind)), .op (.mode q.dataMask .output), .wait]
    ++ applyOps q.assertOrder
    ++ [.op (.adv q.tSetup)]
    ++ (List.range n).flatMap (writeByte par q src)
    ++ [.op (.mode q.dataMask .input)]
    ++ applyItems (lvlMask q.rwrd (q.hostLvl par)) q.assertOrder
    ++ [.op (.finish .ok)]

/-- The program of WRDATA (R205, checks in R252's order). -/
def wrdataProgram (p n : Nat) (s : State) : List Item :=
  withSlot p s
    (if (s.slotAt p).valid then
      if s.params.bufSize < n then finishOnly .badCount
      else writeItems s.params (s.slotAt p) .data n .buffer
    else finishOnly .noProfile)

/-- WRDATA p, n (R205). -/
def execWrdata (p n : Nat) (s : State) : StepOutcome := s.launch (wrdataProgram p n s)

/-- The program of WRCMD (R206). -/
def wrcmdProgram (p : Nat) (imm : Byte) (s : State) : List Item :=
  withSlot p s
    (if (s.slotAt p).valid then writeItems s.params (s.slotAt p) .cmdreg 1 (.imm imm)
    else finishOnly .noProfile)

/-- WRCMD p, imm (R206). -/
def execWrcmd (p : Nat) (imm : Byte) (s : State) : StepOutcome := s.launch (wrcmdProgram p imm s)

end Sys2Proof.Machine
end

