-- ==== Sys2Proof/Syntax.lean ====
section
/-! DEFINITION. The seven commands of 30_encoding.md R102, one constructor per row of
spec/opcode_table.json. The slot `p` and the count `n` are the naturals R101 makes of their fields. -/

namespace Sys2Proof

/-- A command with its operands (R101, R102). -/
inductive Instr where
  /-- OP 0x0 (R130). -/
  | nop
  /-- OP 0x1, `CREATE p` (R133). -/
  | create (p : Nat)
  /-- OP 0x2, `RELEASE p` (R138). -/
  | release (p : Nat)
  /-- OP 0x3, `WRDATA p, n` (R205). -/
  | wrdata (p : Nat) (n : Nat)
  /-- OP 0x4, `WRCMD p, imm` (R206). -/
  | wrcmd (p : Nat) (imm : Byte)
  /-- OP 0x5, `RDDATA p, n` (R228). -/
  | rddata (p : Nat) (n : Nat)
  /-- OP 0x6, `RDREG p` (R229). -/
  | rdreg (p : Nat)
  deriving DecidableEq, Repr

end Sys2Proof
end

