-- ==== Sys2Proof/Machine/Dispatch.lean ====
section
/-! DEFINITION. One arm per command: the meaning of an accepted command (30_encoding.md R105). -/

namespace Sys2Proof.Machine

def exec (i : Instr) (s : State) : Host.Outcome State Fault Refusal :=
  match i with
  | .nop => Sys2Proof.Machine.execNop s
  | .create p => Sys2Proof.Machine.execCreate p s
  | .release p => Sys2Proof.Machine.execRelease p s
  | .wrdata p n => Sys2Proof.Machine.execWrdata p n s
  | .wrcmd p imm => Sys2Proof.Machine.execWrcmd p imm s
  | .rddata p n => Sys2Proof.Machine.execRddata p n s
  | .rdreg p => Sys2Proof.Machine.execRdreg p s

end Sys2Proof.Machine
end

