-- ==== Sys2Proof/WellFormed.lean ====
section
/-! DEFINITION. Which commands the one format can carry: PROF is 4 bits and COUNT 16 bits
(30_encoding.md R100). Whether a slot exists is not asked here: that is a check the machine makes (R105). -/

namespace Sys2Proof

/-- The operands fit their fields (R100). -/
def Instr.wf : Instr → Bool
  | .nop => true
  | .create p => decide (p < 16)
  | .release p => decide (p < 16)
  | .wrdata p n => decide (p < 16) && decide (n < 65536)
  | .wrcmd p _ => decide (p < 16)
  | .rddata p n => decide (p < 16) && decide (n < 65536)
  | .rdreg p => decide (p < 16)

end Sys2Proof
end

