-- ==== Sys2Proof/Decode.lean ====
section
/-! DEFINITION. Decoding a command word (30_encoding.md R100-R104), total on every 32-bit word, and the
encoder of the assembler syntax (R106). -/

namespace Sys2Proof

/-- Why a word is no command. -/
inductive Reject where
  /-- OP 0x7..0xF is illegal (R104). -/
  | illegalOp (op : BitVec 4)
  deriving DecidableEq, Repr

/-- `op = w[3:0]` (R101). -/
def wordOp (w : Word) : BitVec 4 := w.extractLsb' 0 4

/-- `p = zext(w[7:4])` (R101). -/
def wordProf (w : Word) : Nat := (w.extractLsb' 4 4).toNat

/-- `imm = w[15:8]` (R101). -/
def wordImm (w : Word) : Byte := w.extractLsb' 8 8

/-- `n = zext(w[31:16])` (R101). -/
def wordCount (w : Word) : Nat := (w.extractLsb' 16 16).toNat

/-- The row of R102 whose OP equals `w[3:0]`; the fields it does not use are ignored. -/
def decode (w : Word) : Except Reject Instr :=
  match (wordOp w).toNat with
  | 0 => .ok .nop
  | 1 => .ok (.create (wordProf w))
  | 2 => .ok (.release (wordProf w))
  | 3 => .ok (.wrdata (wordProf w) (wordCount w))
  | 4 => .ok (.wrcmd (wordProf w) (wordImm w))
  | 5 => .ok (.rddata (wordProf w) (wordCount w))
  | 6 => .ok (.rdreg (wordProf w))
  | _ => .error (.illegalOp (wordOp w))

/-- The one format C: `(n << 16) | (imm << 8) | (p << 4) | op` (R100, R106). -/
def formatC (count : Nat) (imm : Byte) (prof : Nat) (op : BitVec 4) : Word :=
  ((BitVec.ofNat 16 count).setWidth 32 <<< 16) ||| (imm.setWidth 32 <<< 8)
    ||| ((BitVec.ofNat 4 prof).setWidth 32 <<< 4) ||| op.setWidth 32

/-- The word of a command, fields it does not use being 0 (R106). -/
def encode : Instr → Word
  | .nop => formatC 0 0 0 0x0
  | .create p => formatC 0 0 p 0x1
  | .release p => formatC 0 0 p 0x2
  | .wrdata p n => formatC n 0 p 0x3
  | .wrcmd p imm => formatC 0 imm p 0x4
  | .rddata p n => formatC n 0 p 0x5
  | .rdreg p => formatC 0 0 p 0x6

/-- The command word an instruction of `nbits` bits makes, the bits above `nbits` being 0. A command is
one 32-bit word written to CMD (R100): no byte order arises. -/
def tableWord (nbits w : Nat) : Word := BitVec.ofNat 32 (w % 2 ^ nbits)

/-- What the decoder reads from a word numbered as spec/opcode_table.json numbers its bits. -/
def decodeTableWord (nbits w : Nat) : Option Instr :=
  (decode (tableWord nbits w)).toOption

end Sys2Proof
end

