-- ==== Sys2Proof/Machine/HostPort.lean ====
section
/-! DEFINITION. The host register port (10_state.md R32-R42, 20_memory.md R74), resuming a command after a
host access, and whose turn it is (R30, R79). -/

namespace Sys2Proof.Machine

/-! ## Host registers -/

/-- PTR after an access of BUF_DATA (R36). -/
def State.bumpPtr (s : State) : State :=
  { s with regs := { s.regs with ptr := BitVec.ofNat 16 ((s.regs.ptr.toNat + 1) % s.params.bufSize) } }

/-- The word a host read returns, by offset (R32-R42); reserved offsets read 0. -/
def State.regWord (s : State) (off : Nat) : Word :=
  match off with
  | 0x00 => s.regs.cmd
  | 0x04 => s.regs.status
  | 0x08 => s.regs.rdval.setWidth 32
  | 0x0C => s.regs.ptr.setWidth 32
  | 0x10 => (s.bufRead s.regs.ptr.toNat).setWidth 32
  | 0x14 => s.regs.staging.variant.proto
  | 0x18 => s.regs.staging.d7
  | 0x1C => s.regs.staging.d6
  | 0x20 => s.regs.staging.d5
  | 0x24 => s.regs.staging.d4
  | 0x28 => s.regs.staging.d3
  | 0x2C => s.regs.staging.d2
  | 0x30 => s.regs.staging.d1
  | 0x34 => s.regs.staging.d0
  | 0x38 => s.regs.staging.rscd
  | 0x3C => s.regs.staging.enwr
  | 0x40 => s.regs.staging.rwrd
  | 0x44 => s.regs.staging.tSetup
  | 0x48 => s.regs.staging.tClock
  | 0x4C => s.regs.staging.tRead
  | 0x50 => s.regs.staging.tProc
  | 0x54 => s.regs.staging.tHold
  | 0x58 => s.schedLo
  | 0x5C => s.schedHi
  | 0x60 => s.tl.timing
  | 0x64 => s.profStatus
  | _ => 0

/-- A host read: what it returned is kept for the host, and a read of BUF_DATA moves PTR on (R36). -/
def State.hostRead (s : State) (off : Nat) : State :=
  let t : State := { s with reads := s.reads ++ [(off, s.regWord off)] }
  if off = 0x10 then t.bumpPtr else t

/-- The staging registers take a new value (R37-R39). -/
def State.stage (s : State) (r : Staging) : State :=
  { s with regs := { s.regs with staging := r } }

/-- A host write of BUF_PTR (R36). -/
def State.writePtr (s : State) (v : Word) : State :=
  { s with regs := { s.regs with ptr := BitVec.ofNat 16 ((v.extractLsb' 0 16).toNat % s.params.bufSize) } }

/-- A host write of BUF_DATA: dropped while a command runs (R36). -/
def State.writeBufData (s : State) (v : Word) : State :=
  if s.regs.busy then s.drop
  else (s.bufWrite s.regs.ptr.toNat (v.extractLsb' 0 8)).bumpPtr

/-- A host write at any offset but CMD, by offset; read-only and reserved offsets ignore it (R32-R42). -/
def State.writeReg (s : State) (off : Nat) (v : Word) : State :=
  let r := s.regs.staging
  match off with
  | 0x0C => s.writePtr v
  | 0x10 => s.writeBufData v
  | 0x14 => s.stage { r with variant := protoVariant v }
  | 0x18 => s.stage { r with d7 := v }
  | 0x1C => s.stage { r with d6 := v }
  | 0x20 => s.stage { r with d5 := v }
  | 0x24 => s.stage { r with d4 := v }
  | 0x28 => s.stage { r with d3 := v }
  | 0x2C => s.stage { r with d2 := v }
  | 0x30 => s.stage { r with d1 := v }
  | 0x34 => s.stage { r with d0 := v }
  | 0x38 => s.stage { r with rscd := v }
  | 0x3C => s.stage { r with enwr := v }
  | 0x40 => s.stage { r with rwrd := v }
  | 0x44 => s.stage { r with tSetup := v }
  | 0x48 => s.stage { r with tClock := v }
  | 0x4C => s.stage { r with tRead := v }
  | 0x50 => s.stage { r with tProc := v }
  | 0x54 => s.stage { r with tHold := v }
  | _ => s

/-- An access the port admits: 32 bits wide at a multiple of 4 (R74). -/
def admitted (bits off : Nat) : Bool := decide (bits = 32) && decide (off % 4 = 0)

/-- The state a host move at the head of the script leaves, once it is taken off the script. -/
def State.popMove (s : State) : State := { s with script := s.script.tail }

/-! ## The running command -/

/-- The program of a decoded command, as its meaning starts it (R102, R105). -/
def programOf (i : Instr) (s : State) : List Item :=
  match i with
  | .nop => nopProgram
  | .create p => createProgram p s
  | .release p => releaseProgram p s
  | .wrdata p n => wrdataProgram p n s
  | .wrcmd p imm => wrcmdProgram p imm s
  | .rddata p n => rddataProgram p n s
  | .rdreg p => rdregProgram p s

/-- The program of the accepted word in CMD. No host access changes what it is made of while BUSY = 1
(R82). -/
def State.running (s : State) : List Item :=
  match decode s.regs.cmd with
  | .ok i => programOf i s
  | .error _ => illegalProgram

/-- The sequencer goes on with the running command from where it stands (R50). -/
def State.resume (s : State) : StepOutcome := runFrom s.running s

/-! ## Whose turn it is -/

/-- Who moves in a step, with what the state is before that move. -/
inductive Turn where
  /-- An idle sequencer takes an accepted CMD write (R33). -/
  | command (w : Word) (s : State)
  /-- The host's move changes the state at once. -/
  | host (o : StepOutcome)
  /-- The running command goes on. -/
  | sequencer
  /-- Nothing but time passes. -/
  | idle

/-- A host move lands: where it is a CMD write while BUSY = 0 the sequencer takes the command. R74's refusal
comes before the fault of log entry 13. -/
def State.hostTurn (s : State) (a : HostAct) : Turn :=
  match a with
  | .reset => .host (.next s.resetNow)
  | .read bits off =>
    if admitted bits off then
      if off < 256 then .host (.next (s.hostRead off)) else .host (.fault (.outsideHostSpace off))
    else .host (.refused (.hostAccess bits off))
  | .write bits off v =>
    if admitted bits off then
      if off = 0 then
        if s.regs.busy then .host (.next s.drop) else .command v s
      else if off < 256 then .host (.next (s.writeReg off v))
      else .host (.fault (.outsideHostSpace off))
    else .host (.refused (.hostAccess bits off))

/-- Whose turn it is: the host's where its next move lands here or the sequencer is idle, else the
running command's, else nobody's (R30, R79; log entry 1). -/
def State.turn (s : State) : Turn :=
  match s.script with
  | [] => if s.regs.busy then .sequencer else .idle
  | m :: _ =>
    if s.regs.busy && !decide (m.after ≤ s.ctl.steps) then .sequencer else s.popMove.hostTurn m.act

end Sys2Proof.Machine
end

