-- ==== Sys2Proof/Machine/Step.lean ====
section
/-! DEFINITION. One step of the machine: one agent moves (10_state.md R30, 20_memory.md R79). -/

namespace Sys2Proof.Machine

/-- A step: an accepted CMD write is decoded and its command runs (30_encoding.md R105); any other host
move, the rest of a running command, or the passing of time. -/
def step (s : State) : Host.Outcome State Fault Refusal :=
  match s.turn with
  | .command w t =>
    match decode w with
    | .ok i => exec i (t.accept w)
    | .error _ => execIllegal (t.accept w)
  | .host o => o
  | .sequencer => s.resume
  | .idle => s.idleTick

/-- `s` with an idle sequencer and a host about to write the command to CMD: commands arrive as CMD writes
and are never fetched (20_memory.md R71). -/
def State.withFetchWord (s : State) (nbits w : Nat) : State :=
  { s with
    regs := { s.regs with busy := false }
    script := ⟨0, .write 32 0 (tableWord nbits w)⟩ :: s.script }

end Sys2Proof.Machine
end

