-- ==== Sys2Proof/Safety.lean ====
section
/-! DEFINITION. The terms claims are stated in: the invariant of the machine, when a command is left
undisturbed and the timebase has room for it, and the transaction logs and delays the spec's programs give
(42_write.md R190, 43_read.md R220, 70_reset_and_hazards.md R310-R312), written without the sequencer. -/

namespace Sys2Proof.Machine

open Sys2Proof.Config (Params)

/-! ## The invariant -/

/-- A bank mask with no 1 in bits 28..31 (20_memory.md R75). -/
def maskUsable (m : Word) : Bool := decide (m.toNat < 2 ^ 28)

/-- A transaction whose mask names usable pins only (R75); a bank read has no mask. -/
def Txn.usable : Txn → Bool
  | .mode m _ => maskUsable m
  | .clr m => maskUsable m
  | .set m => maskUsable m
  | .read _ => true

/-- The slot's width is the one its pins give (10_state.md R45). -/
def Slot.widthOk (q : Slot) : Bool := decide (q.bpc = widthOf q.d3 q.d2 q.d1 q.d0)

/-- A WAIT that spins belongs to a running command, has not reached its deadline, and that deadline is not
before `tl.sched` (R171, R172). -/
def State.spinOk (s : State) : Bool :=
  match s.ctl.spin with
  | none => true
  | some x => s.regs.busy && decide (s.tl.sched.toNat ≤ x.deadline.toNat) &&
      decide (s.mono.toNat < x.deadline.toNat)

/-- What holds at reset and is kept by every step. -/
structure State.Inv (s : State) : Prop where
  /-- The parameters are in R7's ranges. -/
  params_legal : s.params.legal = true
  /-- BUF is in canonical form. -/
  buf_wf : Memory.wf s.buf = true
  /-- No byte outside BUF is ever written (R12, R70). -/
  buf_bound : ∀ c ∈ s.buf, c.1 < s.params.bufSize
  /-- PTR stays inside BUF (R36). -/
  ptr_bound : s.regs.ptr.toNat < s.params.bufSize
  /-- There are P_NUM_PROFILES slots (R44). -/
  slots_length : s.slots.length = s.params.numProfiles
  /-- A valid slot's `bpc` is the one R45 gives. -/
  slots_width : ∀ q ∈ s.slots, q.valid = true → q.widthOk = true
  /-- The scheduled instant never runs ahead of the timebase (R166, R171). -/
  sched_le_mono : s.tl.sched.toNat ≤ s.mono.toNat
  /-- No transaction names a pin above 27 (R75). -/
  tx_usable : ∀ x ∈ s.port.tx, x.usable = true
  /-- Nor do the transient masks. -/
  masks_usable : maskUsable s.ctl.masks.c = true ∧ maskUsable s.ctl.masks.s = true
  /-- An idle sequencer holds no control state (R51, R226). -/
  idle_ctl : s.regs.busy = false → s.ctl = Control.idle
  /-- A spin is one that a WAIT can be in. -/
  spin_ok : s.spinOk = true

/-! ## When a command runs through -/

/-- No host move lands within the next command's first `k` steps. -/
def State.quiet (s : State) (k : Nat) : Bool :=
  match s.script with
  | [] => true
  | m :: _ => decide (k ≤ m.after)

/-- The most steps that the next `w` WAITs can make beyond their first: the lengths fairness gives `w`
spins, each with its last read (R171, R176). -/
def spinsAhead : Nat → Draws Nat → Nat
  | 0, _ => 0
  | w + 1, d => d.value Sys2Proof.Config.spins + 1 + spinsAhead w d.rest

/-- No host move lands within the next command, of `ops` micro-operations with `waits` WAITs among them. -/
def State.quietFor (s : State) (ops waits : Nat) : Bool := s.quiet (ops + spinsAhead waits s.env.spins)

/-- The sum of the next `k` times between reads of the timebase. -/
def elapsedAhead : Nat → Draws Nat → Nat
  | 0, _ => 0
  | k + 1, d => d.value Sys2Proof.Config.elapsed + elapsedAhead k d.rest

/-- The reads of the timebase that are left of a spin in progress, at most. -/
def State.spinReads (s : State) : Nat :=
  match s.ctl.spin with
  | none => 0
  | some x => x.left + 1

/-- The later of the timebase and the deadline of a spin in progress. -/
def State.horizon (s : State) : Nat :=
  match s.ctl.spin with
  | none => s.mono.toNat
  | some x => max s.mono.toNat x.deadline.toNat

/-- The timebase and every deadline of a spin in progress and the next `waits` WAITs stay below 2^64 (R177):
each WAIT moves the timebase by the times between its reads and at most one increment past them. -/
def State.timeRoom (s : State) (waits : Nat) : Bool :=
  decide (s.tl.sched.toNat ≤ s.mono.toNat) && s.spinOk &&
  decide (s.horizon
    + elapsedAhead (s.spinReads + waits + spinsAhead waits s.env.spins) s.env.elapsed
    + waits * 2 ^ 32 < timeLimit)

/-- The timebase at which a spin from `now` to a deadline ends, and the supply after its reads: the first
read at or past the deadline, which fairness puts after `left` others at the latest (R171, R176). -/
def spinEnd (deadline : Nat) : Nat → Nat → Draws Nat → Nat × Draws Nat
  | 0, now, e => (max (now + e.value Sys2Proof.Config.elapsed) deadline, e.rest)
  | left + 1, now, e =>
    if deadline ≤ now + e.value Sys2Proof.Config.elapsed then
      (now + e.value Sys2Proof.Config.elapsed, e.rest)
    else spinEnd deadline left (now + e.value Sys2Proof.Config.elapsed) e.rest

/-- The instant a WAIT works to, its first read being `now`: its deadline, or after an overrun `now`, under
REWAIT an increment later (R171, R172). -/
def State.waitDeadline (s : State) (now : Nat) : Nat :=
  if s.tl.sched.toNat + s.tl.timing.toNat < now then
    match s.params.resyncMode with
    | .immediate => now
    | .rewait => now + s.tl.timing.toNat
  else s.tl.sched.toNat + s.tl.timing.toNat

/-- The timebase at which the next WAIT ends, its first read being `now`. -/
def State.waitEnd (s : State) (now : Nat) : Nat :=
  if s.waitDeadline now ≤ now then now
  else (spinEnd (s.waitDeadline now) (s.env.spins.value Sys2Proof.Config.spins) now s.env.elapsed.rest).1

/-- The WAITs that commit the increments `ds` one after the other do not overrun: the first read of each is
at or before its deadline (R171; 95_test_vectors.md, section 0). -/
def onTime : List Word → Nat → Nat → Draws Nat → Draws Nat → Bool
  | [], _, _, _, _ => true
  | d :: ds, sched, mono, e, k =>
    let now := mono + e.value Sys2Proof.Config.elapsed
    if now < sched + d.toNat then
      let r := spinEnd (sched + d.toNat) (k.value Sys2Proof.Config.spins) now e.rest
      onTime ds (sched + d.toNat) r.1 r.2 k.rest
    else decide (now = sched + d.toNat) && onTime ds (sched + d.toNat) now e.rest k

/-- No WAIT of a transfer that requests the increments `ds` overruns: its WAITs commit the increment it
inherits and then all of `ds` but the last (R190, R198, R220). -/
def State.noOverrun (s : State) (ds : List Word) : Bool :=
  onTime (s.tl.timing :: ds.dropLast) s.tl.sched.toNat s.mono.toNat s.env.elapsed s.env.spins

/-- The WAITs of a transfer of `n` bytes over `q` (R190, R220). -/
def Slot.waits (q : Slot) (n : Nat) : Nat := 1 + 2 * n * q.bpc.groups

/-- The micro-operations of a write of `n` bytes over `q`, `finish` among them (R190). -/
def Slot.writeOps (q : Slot) (n : Nat) : Nat := 9 + 8 * n * q.bpc.groups

/-- At least the micro-operations of a read of `n` units over `q`, `finish` among them (R220). -/
def Slot.readOps (q : Slot) (n : Nat) : Nat := 7 + 10 * n * q.bpc.groups

/-- The WAITs of a command (R130-R138, R190, R220). -/
def State.waitsOf (s : State) : Instr → Nat
  | .nop => 0
  | .create _ => 0
  | .release _ => 0
  | .wrdata p n => (s.slotAt p).waits n
  | .wrcmd p _ => (s.slotAt p).waits 1
  | .rddata p n => (s.slotAt p).waits n
  | .rdreg p => (s.slotAt p).waits 1

/-- The host's next move lands now: it is at the head of the script, and the sequencer is idle or has made
the steps the move waits for. -/
def State.lands (s : State) (act : HostAct) (rest : List HostMove) : Prop :=
  ∃ after, s.script = ⟨after, act⟩ :: rest ∧ (s.regs.busy = false ∨ after ≤ s.ctl.steps)

/-- The state with another PTR. -/
def State.withPtr (s : State) (x : BitVec 16) : State := { s with regs := { s.regs with ptr := x } }

/-- A command that ran to its end with RESULT = OK. -/
def State.doneOk (t : State) : Prop := t.regs.busy = false ∧ t.regs.result = .ok

/-! ## Port transactions of the programs -/

/-- `APPLY(c, s, order)` in the log (R164). -/
def applyTrace (m : Masks) : Order → List Txn
  | .clrThenSet => [.clr m.c, .set m.s]
  | .setThenClr => [.set m.s, .clr m.c]

/-- `DRIVE(pin, l)` in the log (R165). -/
def driveTrace (p : Pin) (l : Bool) : List Txn :=
  match p with
  | none => []
  | some i => if l then [.set (pinBit (some i))] else [.clr (pinBit (some i))]

/-- Group `k` of a byte, most significant group first: `byte[7:4]`, `byte[3:0]`, or the byte (R191). -/
def Slot.group (q : Slot) (b : Byte) (k : Nat) : Byte :=
  match q.bpc, k with
  | .w8, _ => b
  | .w4, 0 => (b.extractLsb' 4 4).setWidth 8
  | .w4, _ => (b.extractLsb' 0 4).setWidth 8

/-- The transactions of one group of a write (R190 step 3). -/
def writeGroupTrace (q : Slot) (g : Byte) : List Txn :=
  applyTrace (q.assertMasks g) q.assertOrder ++ applyTrace (q.deassertMasks g) q.deassertOrder

/-- The transactions of `WRITE` for a list of bytes (R190). -/
def writeTrace (par : Params) (q : Slot) (kind : Kind) (bytes : List Byte) : List Txn :=
  [.mode q.dataMask .output]
    ++ applyTrace (q.writeSetup par kind) q.assertOrder
    ++ bytes.flatMap (fun b => (List.range q.bpc.groups).flatMap fun k => writeGroupTrace q (q.group b k))
    ++ [.mode q.dataMask .input]
    ++ applyTrace (lvlMask q.rwrd (q.hostLvl par)) q.assertOrder

/-- The transactions of one group of a read, the bank answering `v` (R220 step 2). -/
def readGroupTrace (par : Params) (q : Slot) (v : Word) : List Txn :=
  applyTrace (lvlMask (q.rstb par) q.aLvl) q.assertOrder
    ++ [.read v]
    ++ applyTrace (lvlMask (q.rstb par) q.nLvl) q.deassertOrder

/-- The transactions of `READ` for a list of bank answers, one per group (R220). -/
def readTrace (par : Params) (q : Slot) (kind : Kind) (answers : List Word) : List Txn :=
  (match q.variant with
    | .a => driveTrace q.rwrd (devLvl par)
    | .b => [])
    ++ applyTrace (q.readSetup par kind) q.assertOrder
    ++ answers.flatMap (readGroupTrace par q)
    ++ driveTrace q.rwrd (q.hostLvl par)

/-- The transactions of CREATE for the profile `q` (R133). -/
def createTrace (par : Params) (q : Slot) : List Txn :=
  driveTrace q.wstb q.nLvl ++ driveTrace q.rwrd (q.hostLvl par)
    ++ [.mode q.ctrlMask .output, .mode q.dataMask .input]

/-! ## What a log does to the bank -/

/-- OUT after a transaction (R161, R162). -/
def Txn.outAfter (o : Word) : Txn → Word
  | .clr m => o &&& ~~~m
  | .set m => o ||| m
  | .mode _ _ => o
  | .read _ => o

/-- DIR after a transaction (R160). -/
def Txn.dirAfter (d : Word) : Txn → Word
  | .mode m .output => d ||| m
  | .mode m .input => d &&& ~~~m
  | .clr _ => d
  | .set _ => d
  | .read _ => d

/-- The port after a log of transactions. -/
def Port.after (p : Port) (l : List Txn) : Port :=
  ⟨l.foldl Txn.outAfter p.out, l.foldl Txn.dirAfter p.dir, p.tx ++ l⟩

/-! ## Free values a command takes -/

/-- The next `k` free values of a supply. -/
def Draws.take {α : Type} (free : Nat → α) : Nat → Draws α → List α
  | 0, _ => []
  | k + 1, d => d.value free :: Draws.take free k d.rest

/-- The next `k` READBANK answers (R163). -/
def State.answers (s : State) (k : Nat) : List Word := s.env.bank.take Sys2Proof.Config.bank k

/-- The free bits of the next `k` extractions (R221). -/
def State.undefs (s : State) (k : Nat) : List Byte := s.env.undef.take Sys2Proof.Config.undefBits k

/-- The byte assembled from a unit's answers, first group most significant (R222). -/
def Slot.assemble (q : Slot) (vs : List Word) (us : List Byte) : Byte :=
  match q.bpc, vs, us with
  | .w8, v :: _, u :: _ => q.extract v u
  | .w4, v :: w :: _, u :: x :: _ => (q.extract v u <<< 4) ||| q.extract w x
  | _, _, _ => 0

/-- Byte `i` of a read whose groups were answered in order by `vs` and `us` (R227). -/
def Slot.unitByte (q : Slot) (vs : List Word) (us : List Byte) (i : Nat) : Byte :=
  q.assemble (vs.drop (i * q.bpc.groups)) (us.drop (i * q.bpc.groups))

/-! ## Delays -/

/-- The increments a write of `n` bytes requests, in order (R190). -/
def writeDelays (par : Params) (q : Slot) (n : Nat) : List Word :=
  q.tSetup :: (List.range n).flatMap fun _ =>
    (List.range q.bpc.groups).flatMap fun k => [q.tClock, q.dW par k]

/-- The increments a read of `n` units requests and a WAIT commits, in order (R220, R224). -/
def readDelays (q : Slot) (n : Nat) : List Word :=
  q.tSetup :: (List.range n).flatMap fun _ =>
    (List.range q.bpc.groups).flatMap fun k => [q.tRead, q.dR k]

/-- The sum of the increments that are committed: all but the last, which stays pending. -/
def committed (ds : List Word) : Nat := (ds.dropLast.map BitVec.toNat).sum

/-! ## Shared pins -/

/-- Two sets of lines have no pin in common (40_profile.md R136 (c)). -/
def disjoint (x y : Word) : Bool := decide (x &&& y = 0)

/-- The mask of a SET or CLR. -/
def Txn.mask : Txn → Word
  | .mode m _ => m
  | .clr m => m
  | .set m => m
  | .read _ => 0

end Sys2Proof.Machine
end

