-- ==== Sys2Proof/Certificates/Slice0/Obligations.lean ====
section
/-! DEFINITION. The statements for the provers, in the order of OBLIGATIONS.json. Log entry <n> is
notes/assumptions/<n>.md. -/

open Sys2Proof Sys2Proof.Machine

/-! ## Encoding -/

/-- R100, R101, R106: the word of a command whose operands fit their fields decodes to that command. -/
def Obligations.DecodeInvertsEncode : Prop :=
  ∀ i : Instr, i.wf = true → decode (encode i) = .ok i

/-- R103: every word decodes to exactly one row, the one with its OP, or to "illegal". -/
def Obligations.EveryWordIsOneRowOrIllegal : Prop :=
  ∀ w : Word,
    ((wordOp w).toNat < 7 → ∃ i, decode w = .ok i ∧ i.wf = true ∧ wordOp (encode i) = wordOp w) ∧
    (7 ≤ (wordOp w).toNat → decode w = .error (.illegalOp (wordOp w)))

/-- R102: the opcode map, its illegal rows too, whatever stands in the fields a command does not use. -/
def Obligations.OpcodeMapIgnoresUnusedFields : Prop :=
  ∀ (n : Nat) (imm : Byte) (p : Nat), n < 65536 → p < 16 →
    decode (formatC n imm p 0x0) = .ok .nop ∧
    decode (formatC n imm p 0x1) = .ok (.create p) ∧
    decode (formatC n imm p 0x2) = .ok (.release p) ∧
    decode (formatC n imm p 0x3) = .ok (.wrdata p n) ∧
    decode (formatC n imm p 0x4) = .ok (.wrcmd p imm) ∧
    decode (formatC n imm p 0x5) = .ok (.rddata p n) ∧
    decode (formatC n imm p 0x6) = .ok (.rdreg p) ∧
    ∀ op : BitVec 4, 7 ≤ op.toNat → decode (formatC n imm p op) = .error (.illegalOp op)

/-- R106's worked encodings, and 95_test_vectors.md E6, E7, E14. -/
def Obligations.WorkedEncodingsDecode : Prop :=
  decode 0x0000A504 = .ok (.wrcmd 0 0xA5) ∧ decode 0x00020013 = .ok (.wrdata 1 2) ∧
  decode 0x00030005 = .ok (.rddata 0 3) ∧ decode 0x00000026 = .ok (.rdreg 2) ∧
  decode 0x00000031 = .ok (.create 3) ∧ decode 0x12345670 = .ok .nop ∧
  decode 0x00000007 = .error (.illegalOp 7) ∧ decode 0x0000FF12 = .ok (.release 1)

/-! ## The host port and acceptance -/

/-- R33, R105: an idle sequencer that the host writes a command word to runs the decoded command, from
the state with the host's move taken, CMD holding the word, BUSY = 1 and LOST = 0. -/
def Obligations.StepRunsTheAcceptedCommand : Prop :=
  ∀ (s : State) (w : Word) (rest : List HostMove) (i : Instr),
    s.regs.busy = false → s.lands (.write 32 0 w) rest → decode w = .ok i →
    step s = exec i { s with
      script := rest
      regs := { s.regs with cmd := w, busy := true, lost := false } }

/-- R33: a CMD write is accepted while BUSY = 0 and dropped while BUSY = 1, and CMD reads as the last
accepted word: but for reset, a step that changes it accepts that word. -/
def Obligations.CmdWritesAreAcceptedOrDropped : Prop :=
  (∀ (s : State) (w : Word) (rest : List HostMove), s.lands (.write 32 0 w) rest →
    (s.regs.busy = false → ∀ t : State,
      t = { s with script := rest, regs := { s.regs with cmd := w, busy := true, lost := false } } →
      (∀ i, decode w = .ok i → step s = exec i t) ∧
      (∀ e, decode w = .error e → step s = execIllegal t)) ∧
    (s.regs.busy = true →
      step s = .next { s with script := rest, regs := { s.regs with lost := true } })) ∧
  (∀ (s : State) (rest : List HostMove), s.lands (.read 32 0) rest →
    step s = .next { s with script := rest, reads := s.reads ++ [(0, s.regs.cmd)] }) ∧
  (∀ s t : State, step s = .next t → (∀ rest, ¬ s.lands .reset rest) →
    t.regs.cmd = s.regs.cmd ∨
      (s.regs.busy = false ∧ ∃ rest, s.lands (.write 32 0 t.regs.cmd) rest))

/-- R104: an illegal OP, or a PROF that names no slot, finishes with ILLEGAL_COMMAND and changes nothing
but STATUS (and what acceptance changed); NOP never looks at PROF. -/
def Obligations.IllegalCommandsChangeOnlyStatus : Prop :=
  (∀ (s : State) (w : Word) (rest : List HostMove), s.regs.busy = false →
    s.lands (.write 32 0 w) rest → 7 ≤ (wordOp w).toNat →
    ({ s with script := rest } : State).quiet 1 = true →
    step s = .next { s with
      script := rest
      ctl := Control.idle
      regs := { s.regs with cmd := w, busy := false, lost := false, result := .illegalCommand } }) ∧
  (∀ (s : State) (p n : Nat) (imm : Byte), s.params.numProfiles ≤ p → s.quiet 1 = true →
    ∀ i, i = Instr.create p ∨ i = .release p ∨ i = .wrdata p n ∨ i = .wrcmd p imm ∨
      i = .rddata p n ∨ i = .rdreg p →
    exec i s = .next { s with
      ctl := Control.idle, regs := { s.regs with busy := false, result := .illegalCommand } }) ∧
  (∀ w : Word, (wordOp w).toNat = 0 → decode w = .ok .nop)

/-- R36: BUF_PTR and BUF_DATA, and that a command, started or going on, neither reads nor writes PTR. -/
def Obligations.BufferPortRules : Prop :=
  (∀ (s : State) (v : Word) (rest : List HostMove), s.lands (.write 32 0x0C v) rest →
    1 ≤ s.params.bufSize → s.params.bufSize ≤ 65536 →
    ∃ t, step s = .next t ∧ t.regs.ptr.toNat = (v.extractLsb' 0 16).toNat % s.params.bufSize ∧
      t = { s with script := rest, regs := { s.regs with ptr := t.regs.ptr } }) ∧
  (∀ (s : State) (rest : List HostMove), s.lands (.read 32 0x10) rest →
    1 ≤ s.params.bufSize → s.params.bufSize ≤ 65536 →
    ∃ t, step s = .next t ∧
      t.reads = s.reads ++ [(0x10, (s.bufRead s.regs.ptr.toNat).setWidth 32)] ∧
      t.regs.ptr.toNat = (s.regs.ptr.toNat + 1) % s.params.bufSize ∧
      t = { s with script := rest, reads := t.reads, regs := { s.regs with ptr := t.regs.ptr } }) ∧
  (∀ (s : State) (v : Word) (rest : List HostMove), s.lands (.write 32 0x10 v) rest →
    s.regs.busy = false → 1 ≤ s.params.bufSize → s.params.bufSize ≤ 65536 →
    ∃ t, step s = .next t ∧ t.bufRead s.regs.ptr.toNat = v.extractLsb' 0 8 ∧
      (∀ j, j ≠ s.regs.ptr.toNat → t.bufRead j = s.bufRead j) ∧
      t.regs.ptr.toNat = (s.regs.ptr.toNat + 1) % s.params.bufSize ∧
      t = { s with script := rest, buf := t.buf, regs := { s.regs with ptr := t.regs.ptr } }) ∧
  (∀ (s : State) (v : Word) (rest : List HostMove), s.lands (.write 32 0x10 v) rest →
    s.regs.busy = true →
    step s = .next { s with script := rest, regs := { s.regs with lost := true } }) ∧
  (∀ (s t : State) (x : BitVec 16),
    (∀ i : Instr, exec i s = .next t → exec i (s.withPtr x) = .next (t.withPtr x)) ∧
    (s.resume = .next t → (s.withPtr x).resume = .next (t.withPtr x)))

/-- R37-R39, R297: a staging pin or timing register holds the word last written, at any time; the write
changes no other register's word and no profile. PROTO takes bit 0 alone. -/
def Obligations.StagingRegistersHoldWhatWasWritten : Prop :=
  ∀ (s : State) (off : Nat) (v : Word) (rest : List HostMove),
    off ∈ [0x14, 0x18, 0x1C, 0x20, 0x24, 0x28, 0x2C, 0x30, 0x34, 0x38, 0x3C, 0x40, 0x44, 0x48, 0x4C,
      0x50, 0x54] →
    s.lands (.write 32 off v) rest →
    ∃ t, step s = .next t ∧ t.regWord off = (if off = 0x14 then v &&& 1 else v) ∧
      (∀ j, j ≠ off → t.regWord j = s.regWord j) ∧
      t = { s with script := rest, regs := { s.regs with staging := t.regs.staging } }

/-- R42: a reserved offset reads 0 and ignores writes. -/
def Obligations.ReservedOffsetsReadZeroIgnoreWrites : Prop :=
  ∀ (s : State) (off : Nat) (rest : List HostMove), 0x68 ≤ off → off ≤ 0xFC → off % 4 = 0 →
    (s.lands (.read 32 off) rest →
      step s = .next { s with script := rest, reads := s.reads ++ [(off, 0)] }) ∧
    (∀ v : Word, s.lands (.write 32 off v) rest → step s = .next { s with script := rest })

/-- R74: an access of another width or at an offset that is no multiple of 4 is refused; inside the
register space no other read is, and no other write but one that starts a command. -/
def Obligations.AccessesThatAreNotAlignedWordsAreRefused : Prop :=
  ∀ (s : State) (bits off : Nat) (v : Word) (rest : List HostMove),
    ((bits ≠ 32 ∨ off % 4 ≠ 0) →
      (s.lands (.read bits off) rest → step s = .refused (.hostAccess bits off)) ∧
      (s.lands (.write bits off v) rest → step s = .refused (.hostAccess bits off))) ∧
    (bits = 32 → off % 4 = 0 → off < 256 →
      (s.lands (.read bits off) rest → ∃ t, step s = .next t) ∧
      (s.lands (.write bits off v) rest → off ≠ 0 ∨ s.regs.busy = true → ∃ t, step s = .next t))

/-- THE MODEL'S CHOICE (log entry 13): an aligned word access of the host outside the 256-byte register
space of R71 faults. -/
def Obligations.AccessesOutsideTheRegisterSpaceFault : Prop :=
  ∀ (s : State) (off : Nat) (v : Word) (rest : List HostMove), 256 ≤ off → off % 4 = 0 →
    (s.lands (.read 32 off) rest → step s = .fault (.outsideHostSpace off)) ∧
    (s.lands (.write 32 off v) rest → step s = .fault (.outsideHostSpace off))

/-- R41: PROF_STATUS, bit by bit, and that writes of it are ignored. -/
def Obligations.ProfStatusShowsValidAndCanRead : Prop :=
  ∀ s : State, s.params.numProfiles ≤ 16 →
    (∀ n, n < 16 →
      (s.regWord 0x64).getLsbD n = (decide (n < s.params.numProfiles) && (s.slotAt n).valid) ∧
      (s.regWord 0x64).getLsbD (16 + n) =
        (decide (n < s.params.numProfiles) && (s.slotAt n).valid && (s.slotAt n).rwrd.isSome)) ∧
    (∀ (v : Word) (rest : List HostMove), s.lands (.write 32 0x64 v) rest →
      step s = .next { s with script := rest })

/-- R32, R34, R40: STATUS and the timeline views. -/
def Obligations.StatusAndTimelineViews : Prop :=
  ∀ s : State,
    (s.regWord 0x04).getLsbD 0 = s.regs.busy ∧ (s.regWord 0x04).getLsbD 1 = s.regs.lost ∧
    (s.regWord 0x04).extractLsb' 4 4 = s.regs.result.code ∧
    (s.regWord 0x04).extractLsb' 2 2 = 0 ∧ (s.regWord 0x04).extractLsb' 8 24 = 0 ∧
    s.regWord 0x5C ++ s.regWord 0x58 = s.tl.sched ∧ s.regWord 0x60 = s.tl.timing ∧
    ∀ (off : Nat) (v : Word) (rest : List HostMove), off ∈ [0x04, 0x08, 0x58, 0x5C, 0x60] →
      s.lands (.write 32 off v) rest → step s = .next { s with script := rest }

/-- R32, R33, R35-R40: a host read that lands takes its word, at every offset but BUF_DATA's (R36's own
statement), and changes nothing; and which state each word shows. -/
def Obligations.HostReadsReturnTheRegister : Prop :=
  (∀ (s : State) (off : Nat) (rest : List HostMove), off < 256 → off % 4 = 0 → off ≠ 0x10 →
    s.lands (.read 32 off) rest →
    step s = .next { s with script := rest, reads := s.reads ++ [(off, s.regWord off)] }) ∧
  ∀ s : State,
    s.regWord 0x00 = s.regs.cmd ∧ s.regWord 0x08 = s.regs.rdval.setWidth 32 ∧
    s.regWord 0x0C = s.regs.ptr.setWidth 32 ∧
    s.regWord 0x14 = (match s.regs.staging.variant with | .a => 0 | .b => 1) ∧
    [0x18, 0x1C, 0x20, 0x24, 0x28, 0x2C, 0x30, 0x34, 0x38, 0x3C, 0x40].map s.regWord =
      [s.regs.staging.d7, s.regs.staging.d6, s.regs.staging.d5, s.regs.staging.d4, s.regs.staging.d3,
        s.regs.staging.d2, s.regs.staging.d1, s.regs.staging.d0, s.regs.staging.rscd, s.regs.staging.enwr,
        s.regs.staging.rwrd] ∧
    [0x44, 0x48, 0x4C, 0x50, 0x54].map s.regWord =
      [s.regs.staging.tSetup, s.regs.staging.tClock, s.regs.staging.tRead, s.regs.staging.tProc,
        s.regs.staging.tHold]

/-- R34: LOST is cleared by an accepted command (or reset) alone, and RESULT changes at a finish alone:
the step ends with BUSY = 0, and a command was running or its CMD write was accepted in that step. -/
def Obligations.StatusBitsChangeOnlyAsStated : Prop :=
  ∀ s t : State, step s = .next t →
    (∀ rest, ¬ s.lands .reset rest) →
    (s.regs.lost = true → t.regs.lost = true ∨
      (s.regs.busy = false ∧ ∃ w rest, s.lands (.write 32 0 w) rest)) ∧
    (t.regs.lost = true → s.regs.lost = true ∨
      (s.regs.busy = true ∧ ∃ w rest, s.lands (.write 32 0 w) rest ∨ s.lands (.write 32 0x10 w) rest)) ∧
    (t.regs.result ≠ s.regs.result → t.regs.busy = false ∧
      (s.regs.busy = true ∨ ∃ w rest, s.lands (.write 32 0 w) rest))

/-- R35: RDVAL changes (reset apart) only where RDREG finishes with OK. -/
def Obligations.RdvalIsWrittenByRdregAlone : Prop :=
  ∀ s t : State, step s = .next t → (∀ rest, ¬ s.lands .reset rest) →
    t.regs.rdval ≠ s.regs.rdval →
    t.doneOk ∧ ∃ p, decode t.regs.cmd = .ok (.rdreg p)

/-! ## NOP, CREATE, RELEASE -/

/-- R130: NOP finishes with OK, whatever its other fields; STATUS reads 0 and nothing else changes. -/
def Obligations.NopFinishesOk : Prop :=
  (∀ s : State, s.quiet 1 = true →
    exec .nop s = .next { s with
      ctl := Control.idle, regs := { s.regs with busy := false, result := .ok } }) ∧
  (∀ (s : State) (w : Word) (rest : List HostMove), s.regs.busy = false →
    s.lands (.write 32 0 w) rest → (wordOp w).toNat = 0 →
    ({ s with script := rest } : State).quiet 1 = true →
    ∃ t, step s = .next t ∧ t.regWord 0x04 = 0 ∧
      t = { s with
        script := rest
        ctl := Control.idle
        regs := { s.regs with cmd := w, busy := false, lost := false, result := .ok } })

/-- R134: a pin register names the pin its signed value gives, 0..27, and is UNDEF otherwise. -/
def Obligations.PinsAreNormalisedAsSignedNumbers : Prop :=
  ∀ v : Word,
    (∀ i : Fin 28, normPin v = some i ↔ v.toInt = (i.val : Int)) ∧
    (normPin v = none ↔ v.toInt < 0 ∨ 27 < v.toInt)

/-- R133: CREATE samples `gpio_avail`; with it, the slot takes the normalised staging registers, the port
gets the strobe, the direction line and the two mode changes, and nothing else changes; without it,
DEVICE_UNAVAILABLE and nothing else; a slot that does not exist gives ILLEGAL_COMMAND before that. -/
def Obligations.CreateLatchesTheStagedProfile : Prop :=
  ∀ (s : State) (p : Nat) (q : Slot),
    s.slots.length = s.params.numProfiles → s.quiet 5 = true → q = s.regs.staging.profile →
    (s.params.numProfiles ≤ p → exec (.create p) s = .next { s with
      regs := { s.regs with busy := false, result := .illegalCommand }, ctl := Control.idle }) ∧
    (p < s.params.numProfiles → s.env.avail.value Config.gpioAvail = true →
      ∃ t, exec (.create p) s = .next t ∧ t.slotAt p = q ∧ (∀ j, j ≠ p → t.slotAt j = s.slotAt j) ∧
        t = { s with
          regs := { s.regs with busy := false, result := .ok }
          slots := t.slots
          ctl := Control.idle
          port := s.port.after (createTrace s.params q)
          env := { s.env with avail := s.env.avail.rest } }) ∧
    (p < s.params.numProfiles → s.env.avail.value Config.gpioAvail = false →
      exec (.create p) s = .next { s with
        regs := { s.regs with busy := false, result := .deviceUnavailable }
        ctl := Control.idle
        env := { s.env with avail := s.env.avail.rest } })

/-- R138: RELEASE clears the slot's valid bit and nothing else but STATUS; a slot that is not valid gives
NO_PROFILE and one that does not exist ILLEGAL_COMMAND; after it, every command on the slot but CREATE
gives NO_PROFILE. -/
def Obligations.ReleaseInvalidatesTheSlot : Prop :=
  ∀ (s : State) (p : Nat), s.slots.length = s.params.numProfiles → s.quiet 1 = true →
    (s.params.numProfiles ≤ p → exec (.release p) s = .next { s with
      regs := { s.regs with busy := false, result := .illegalCommand }, ctl := Control.idle }) ∧
    (p < s.params.numProfiles → (s.slotAt p).valid = true →
      ∃ t, exec (.release p) s = .next t ∧
        t.slotAt p = { s.slotAt p with valid := false } ∧ (∀ j, j ≠ p → t.slotAt j = s.slotAt j) ∧
        t = { s with
          regs := { s.regs with busy := false, result := .ok }, slots := t.slots, ctl := Control.idle } ∧
        ∀ (n : Nat) (imm : Byte) (i : Instr), i = .release p ∨ i = .wrdata p n ∨ i = .wrcmd p imm ∨
          i = .rddata p n ∨ i = .rdreg p → exec i t = .next (t.finish .noProfile)) ∧
    (p < s.params.numProfiles → (s.slotAt p).valid = false →
      exec (.release p) s = .next { s with
        regs := { s.regs with busy := false, result := .noProfile }, ctl := Control.idle })

/-- R44: a step that changes a slot is a reset, or runs CREATE or RELEASE of that very slot. -/
def Obligations.SlotsChangeOnlyByCreateReleaseReset : Prop :=
  ∀ (s t : State) (j : Nat), step s = .next t → t.slotAt j ≠ s.slotAt j →
    (∃ rest, s.lands .reset rest) ∨ decode t.regs.cmd = .ok (.create j) ∨
      (decode t.regs.cmd = .ok (.release j) ∧ t.slotAt j = { s.slotAt j with valid := false })

/-! ## Checks and completion -/

/-- R252, R255: the checks and their order; a command that fails one writes STATUS alone. -/
def Obligations.ChecksAreMadeInOrder : Prop :=
  ∀ (s : State) (p n : Nat) (imm : Byte), p < s.params.numProfiles → s.quiet 1 = true →
    ((s.slotAt p).valid = false →
      ∀ i, i = Instr.release p ∨ i = .wrdata p n ∨ i = .wrcmd p imm ∨ i = .rddata p n ∨ i = .rdreg p →
        exec i s = .next (s.finish .noProfile)) ∧
    ((s.slotAt p).valid = true → (s.slotAt p).rwrd = none →
      ∀ i, i = Instr.rddata p n ∨ i = .rdreg p → exec i s = .next (s.finish .unsupportedOperation)) ∧
    ((s.slotAt p).valid = true → s.params.bufSize < n →
      exec (.wrdata p n) s = .next (s.finish .badCount) ∧
      ((s.slotAt p).rwrd ≠ none → exec (.rddata p n) s = .next (s.finish .badCount)))

/-- R252: a command that finishes with a code other than OK has made no port transaction and has written
no state but STATUS (a CREATE has used up one sample of `gpio_avail`, the model's own field). -/
def Obligations.FailedCommandsWriteOnlyStatus : Prop :=
  ∀ (i : Instr) (s t : State), exec i s = .next t → t.regs.busy = false → t.regs.result ≠ .ok →
    t = { s with
      regs := { s.regs with busy := false, result := t.regs.result }
      ctl := Control.idle
      env := { s.env with avail := t.env.avail } }

/-- R76, R177, R257: whatever host moves are to come, no command ever faults, the only refusal is a time
beyond 2^64 - 1, and a command makes its way to a next state: always if it makes no WAIT, and where the
timebase has room for its WAITs if it makes some. The same of what is left of a command that a host move
cut, in a spin or not. -/
def Obligations.CommandsStopOnlyWhereTimeRunsOut : Prop :=
  ∀ (i : Instr) (s : State),
    ((∀ f, exec i s ≠ .fault f) ∧ (∀ r, exec i s = .refused r → r = .timeRange) ∧
      (s.waitsOf i = 0 → ∃ t, exec i s = .next t) ∧
      (s.timeRoom (s.waitsOf i) = true → ∃ t, exec i s = .next t)) ∧
    ((∀ f, s.resume ≠ .fault f) ∧ (∀ r, s.resume = .refused r → r = .timeRange) ∧
      (decode s.regs.cmd = .ok i → s.timeRoom (s.waitsOf i) = true → ∃ t, s.resume = .next t))

/-! ## The timeline -/

/-- R171: WAIT under IMMEDIATE. `now` is the first `Clock()` value: the timebase plus a free time. Past the
deadline `tl.sched` is `now` and there is no spin; else the WAIT ends at or past the deadline and `tl.sched`
is the deadline. Only `tl.sched`, the timebase and the position change. -/
def Obligations.WaitImmediateRule : Prop :=
  ∀ (s t : State) (now deadline : Nat), s.params.resyncMode = .immediate →
    now = s.mono.toNat + s.nextElapsed →
    deadline = s.tl.sched.toNat + s.tl.timing.toNat → s.wait = .next t →
    (deadline < now → t.tl.sched.toNat = now ∧ t.mono.toNat = now) ∧
    (now ≤ deadline → t.tl.sched.toNat = deadline ∧ deadline ≤ t.mono.toNat) ∧
    (now = deadline → t.mono.toNat = now) ∧
    t = { s with
      tl := ⟨t.tl.sched, s.tl.timing⟩
      mono := t.mono
      ctl := { s.ctl with upc := t.ctl.upc, steps := t.ctl.steps, spin := none }
      env := { s.env with elapsed := t.env.elapsed, spins := t.env.spins } }

/-- R172: WAIT under REWAIT waits the increment again after an overrun, from `now`; else it is as under
IMMEDIATE. -/
def Obligations.WaitRewaitRule : Prop :=
  ∀ (s t : State) (now deadline : Nat), s.params.resyncMode = .rewait →
    now = s.mono.toNat + s.nextElapsed →
    deadline = s.tl.sched.toNat + s.tl.timing.toNat → s.wait = .next t →
    (deadline < now → t.tl.sched.toNat = now + s.tl.timing.toNat ∧ t.tl.sched.toNat ≤ t.mono.toNat) ∧
    (now ≤ deadline → t.tl.sched.toNat = deadline ∧ deadline ≤ t.mono.toNat) ∧
    (now = deadline → t.mono.toNat = now) ∧
    t = { s with
      tl := ⟨t.tl.sched, s.tl.timing⟩
      mono := t.mono
      ctl := { s.ctl with upc := t.ctl.upc, steps := t.ctl.steps, spin := none }
      env := { s.env with elapsed := t.env.elapsed, spins := t.env.spins } }

/-- R177: exactly when WAIT, left undisturbed, is refused: its deadline, its first `Clock()` value `now`, the
deadline an overrun gives it under REWAIT, or the `Clock()` value its spin ends at is beyond 2^64 - 1. It
completes where the timebase has room for one WAIT. -/
def Obligations.WaitIsRefusedOnlyOutOfRange : Prop :=
  ∀ (s : State) (now : Nat), now = s.mono.toNat + s.nextElapsed →
    (timeLimit ≤ s.tl.sched.toNat + s.tl.timing.toNat ∨ timeLimit ≤ now ∨
      timeLimit ≤ s.waitDeadline now ∨ timeLimit ≤ s.waitEnd now → s.wait = .refused .timeRange) ∧
    (s.tl.sched.toNat + s.tl.timing.toNat < timeLimit → now < timeLimit →
      s.waitDeadline now < timeLimit → s.waitEnd now < timeLimit →
      ∃ t, s.wait = .next t ∧ t.mono.toNat = s.waitEnd now) ∧
    (s.timeRoom 1 = true → ∃ t, s.wait = .next t)

/-- R171, R172: a WAIT takes one step for each `Clock()` read. Its first step reads `now`; short of the
deadline it leaves a spin, with `tl.sched` as it was, or at `now` after an overrun under REWAIT. A further
step reads the timebase once and ends the spin at or past its deadline, `tl.sched` then the deadline, or
leaves all but the timebase as it was. THE MODEL'S CHOICE is where R176's fairness ends a spin (log entry
5): after `left` further short reads. -/
def Obligations.WaitTakesOneStepPerClockRead : Prop :=
  ∀ (s t : State) (now : Nat), now = s.mono.toNat + s.nextElapsed →
    (s.waitStart = .next t →
      t.mono.toNat = now ∧
      (s.waitDeadline now ≤ now → t.ctl.spin = none ∧ t.tl.sched.toNat = s.waitDeadline now) ∧
      (now < s.waitDeadline now →
        (∃ x, t.ctl.spin = some x ∧ x.deadline.toNat = s.waitDeadline now) ∧
        t.tl.sched.toNat =
          if s.tl.sched.toNat + s.tl.timing.toNat < now then now else s.tl.sched.toNat)) ∧
    (∀ x, s.ctl.spin = some x → s.spinRead = .next t →
      (now < x.deadline.toNat → x.left ≠ 0 →
        t = { s with
          mono := t.mono
          ctl := { s.ctl with spin := some ⟨x.deadline, x.left - 1⟩ }
          env := { s.env with elapsed := s.env.elapsed.rest } } ∧ t.mono.toNat = now) ∧
      (x.deadline.toNat ≤ now ∨ x.left = 0 →
        t = { s with
          tl := ⟨x.deadline, s.tl.timing⟩
          mono := t.mono
          ctl := { s.ctl with spin := none }
          env := { s.env with elapsed := s.env.elapsed.rest } } ∧
        t.mono.toNat = max now x.deadline.toNat))

/-- R79, R171: a host move may land between any two reads of a spin. Where one is to land after the next
read, that read is the whole of what the running command does, and the spin goes on after the move. -/
def Obligations.HostMovesLandInsideASpin : Prop :=
  ∀ (s : State) (x : Spin) (act : HostAct) (rest : List HostMove),
    s.regs.busy = true → s.ctl.spin = some x → s.script = ⟨s.ctl.steps + 1, act⟩ :: rest →
    x.left ≠ 0 → s.mono.toNat + s.nextElapsed < x.deadline.toNat →
    ∃ t, step s = .next t ∧ t.mono.toNat = s.mono.toNat + s.nextElapsed ∧ t.lands act rest ∧
      t = { s with
        mono := t.mono
        ctl := { s.ctl with spin := some ⟨x.deadline, x.left - 1⟩, steps := s.ctl.steps + 1 }
        env := { s.env with elapsed := s.env.elapsed.rest } }

/-- R48, R49: in every step but a reset, `tl.sched` and the timebase never decrease. The premise is a clause
of the invariant. -/
def Obligations.TimeNeverRunsBack : Prop :=
  ∀ s t : State, s.spinOk = true → step s = .next t → (∀ rest, ¬ s.lands .reset rest) →
    s.tl.sched.toNat ≤ t.tl.sched.toNat ∧ s.mono.toNat ≤ t.mono.toNat

/-- R195, R223: the delays after a deassertion. -/
def Obligations.DeassertDelaysAreFlooredByHold : Prop :=
  ∀ (par : Config.Params) (q : Slot) (k d : Nat),
    d = (if k + 1 = q.bpc.groups then q.tProc else q.tClock).toNat →
    (q.dR k).toNat = max d q.tHold.toNat ∧
    (par.holdFloorOnWrite = true → (q.dW par k).toNat = max d q.tHold.toNat) ∧
    (par.holdFloorOnWrite = false → (q.dW par k).toNat = d)

/-! ## Masks and samples -/

/-- R192, R46: a defined active data pin is in the set mask where its bit of the group is 1 and in the
clear mask where it is 0; no other pin is in either. -/
def Obligations.DataMasksPutEachBitOnItsPin : Prop :=
  ∀ (q : Slot) (g : Byte) (x : Nat), x < 32 →
    ((q.dataMasks g).s.getLsbD x = true ↔
      ∃ j i, j < q.bpc.bits ∧ q.d (8 - q.bpc.bits + j) = some i ∧ i.val = x ∧ g.getLsbD j = true) ∧
    ((q.dataMasks g).c.getLsbD x = true ↔
      ∃ j i, j < q.bpc.bits ∧ q.d (8 - q.bpc.bits + j) = some i ∧ i.val = x ∧ g.getLsbD j = false)

/-- R221: bit j of a sampled group is the bank's bit at the pin of bit j, or a free bit for UNDEF. -/
def Obligations.ExtractTakesEachBitFromItsPin : Prop :=
  ∀ (q : Slot) (v : Word) (u : Byte) (j : Nat),
    (j < q.bpc.bits →
      (∀ i : Fin 28, q.d (8 - q.bpc.bits + j) = some i → (q.extract v u).getLsbD j = v.getLsbD i.val) ∧
      (q.d (8 - q.bpc.bits + j) = none → (q.extract v u).getLsbD j = u.getLsbD j)) ∧
    (q.bpc.bits ≤ j → (q.extract v u).getLsbD j = false)

/-- R199: in both mask pairs of a write group the strobe's bit is in the second of the two writes, and, no
data pin being shared with the strobe, in that one alone. -/
def Obligations.StrobeIsInTheSecondWrite : Prop :=
  ∀ (q : Slot) (g : Byte) (e : Fin 28), q.enwr = some e →
    ∃ x y z w, writeGroupTrace q g = [x, y, z, w] ∧
      y.mask.getLsbD e.val = true ∧ w.mask.getLsbD e.val = true ∧
      (disjoint q.dataMask (pinBit q.enwr) = true →
        x.mask.getLsbD e.val = false ∧ z.mask.getLsbD e.val = false)

/-! ## Writes -/

/-- R206, R190: WRCMD on a valid slot completes with OK: the port sees the write program's transactions
for the one byte, and nothing changes but the port, the timeline, the timebase and STATUS. -/
def Obligations.WrcmdWritesTheCommandByte : Prop :=
  ∀ (s : State) (p : Nat) (imm : Byte) (q : Slot), p < s.params.numProfiles →
    q = s.slotAt p → q.valid = true →
    s.quietFor (q.writeOps 1) (q.waits 1) = true → s.timeRoom (q.waits 1) = true →
    ∃ t, exec (.wrcmd p imm) s = .next t ∧
      t.tl.timing = q.dW s.params (q.bpc.groups - 1) ∧
      s.tl.sched.toNat + s.tl.timing.toNat + committed (writeDelays s.params q 1) ≤ t.tl.sched.toNat ∧
      t = { s with
        regs := { s.regs with busy := false, result := .ok }
        tl := t.tl
        mono := t.mono
        ctl := Control.idle
        port := s.port.after (writeTrace s.params q .cmdreg [imm])
        env := { s.env with elapsed := t.env.elapsed, spins := t.env.spins } }

/-- R205, R190: WRDATA of at most P_BUF_SIZE bytes on a valid slot completes with OK: the port sees the
write program's transactions for BUF[0..n-1], and nothing changes but the port, the timeline, the timebase
and STATUS. -/
def Obligations.WrdataWritesTheBuffer : Prop :=
  ∀ (s : State) (p n : Nat) (q : Slot), p < s.params.numProfiles →
    q = s.slotAt p → q.valid = true → n ≤ s.params.bufSize →
    s.quietFor (q.writeOps n) (q.waits n) = true → s.timeRoom (q.waits n) = true →
    ∃ t, exec (.wrdata p n) s = .next t ∧
      t.tl.timing = (if n = 0 then q.tSetup else q.dW s.params (q.bpc.groups - 1)) ∧
      s.tl.sched.toNat + s.tl.timing.toNat + committed (writeDelays s.params q n) ≤ t.tl.sched.toNat ∧
      t = { s with
        regs := { s.regs with busy := false, result := .ok }
        tl := t.tl
        mono := t.mono
        ctl := Control.idle
        port := s.port.after (writeTrace s.params q .data ((List.range n).map s.bufRead))
        env := { s.env with elapsed := t.env.elapsed, spins := t.env.spins } }

/-- R310, R311: where none of its WAITs overruns, the schedule of a write is the sum of its increments,
whatever the tick, the latency and the lengths of its spins. -/
def Obligations.WriteScheduleIsExactWithoutOverrun : Prop :=
  ∀ (s t : State) (p n : Nat) (imm : Byte) (q : Slot), q = s.slotAt p →
    s.noOverrun (writeDelays s.params q n) = true →
    exec (.wrdata p n) s = .next t ∨ (n = 1 ∧ exec (.wrcmd p imm) s = .next t) → t.doneOk →
    t.tl.sched.toNat = s.tl.sched.toNat + s.tl.timing.toNat + committed (writeDelays s.params q n)

/-- R311: the span of a write of n + 1 bytes, its last delay counted, in closed form. -/
def Obligations.WriteSpanFormula : Prop :=
  ∀ (par : Config.Params) (q : Slot) (n G : Nat), par.holdFloorOnWrite = true → G = q.bpc.groups →
    committed (writeDelays par q (n + 1)) + (q.dW par (G - 1)).toNat =
      q.tSetup.toNat + (n + 1) * (G * q.tClock.toNat
        + (G - 1) * max q.tClock.toNat q.tHold.toNat + max q.tProc.toNat q.tHold.toNat)

/-! ## Reads -/

/-- R229, R220: RDREG on a valid slot that can read completes with OK: the port sees the read program's
transactions with the bank's next answers, RDVAL is the byte assembled from them, and nothing else changes
but the timeline, the timebase and STATUS. -/
def Obligations.RdregReadsOneByteIntoRdval : Prop :=
  ∀ (s : State) (p : Nat) (q : Slot), p < s.params.numProfiles →
    q = s.slotAt p → q.valid = true → q.rwrd ≠ none →
    s.quietFor (q.readOps 1) (q.waits 1) = true → s.timeRoom (q.waits 1) = true →
    ∃ t, exec (.rdreg p) s = .next t ∧
      t.regs.rdval = q.unitByte (s.answers q.bpc.groups) (s.undefs q.bpc.groups) 0 ∧
      t.tl.timing = q.dR (q.bpc.groups - 1) ∧
      s.tl.sched.toNat + s.tl.timing.toNat + committed (readDelays q 1) ≤ t.tl.sched.toNat ∧
      t = { s with
        regs := { s.regs with busy := false, result := .ok, rdval := t.regs.rdval }
        tl := t.tl
        mono := t.mono
        ctl := Control.idle
        port := s.port.after (readTrace s.params q .cmdreg (s.answers q.bpc.groups))
        env := { s.env with
          elapsed := t.env.elapsed, spins := t.env.spins, bank := t.env.bank, undef := t.env.undef } }

/-- R228, R220: RDDATA of at most P_BUF_SIZE bytes on a valid slot that can read completes with OK: byte i
of BUF is assembled from the bank's answers to unit i, every other byte of BUF is as before, the port sees
the read program's transactions, and nothing else changes but the timeline, the timebase and STATUS. -/
def Obligations.RddataReadsIntoTheBuffer : Prop :=
  ∀ (s : State) (p n : Nat) (q : Slot), p < s.params.numProfiles →
    q = s.slotAt p → q.valid = true → q.rwrd ≠ none → n ≤ s.params.bufSize →
    s.quietFor (q.readOps n) (q.waits n) = true → s.timeRoom (q.waits n) = true →
    ∃ t, exec (.rddata p n) s = .next t ∧
      (∀ i, i < n → t.bufRead i =
        q.unitByte (s.answers (n * q.bpc.groups)) (s.undefs (n * q.bpc.groups)) i) ∧
      (∀ i, n ≤ i → t.bufRead i = s.bufRead i) ∧
      t.tl.timing = (if n = 0 then q.tSetup else q.dR (q.bpc.groups - 1)) ∧
      s.tl.sched.toNat + s.tl.timing.toNat + committed (readDelays q n) ≤ t.tl.sched.toNat ∧
      t = { s with
        regs := { s.regs with busy := false, result := .ok }
        tl := t.tl
        mono := t.mono
        ctl := Control.idle
        buf := t.buf
        port := s.port.after (readTrace s.params q .data (s.answers (n * q.bpc.groups)))
        env := { s.env with
          elapsed := t.env.elapsed, spins := t.env.spins, bank := t.env.bank, undef := t.env.undef } }

/-- R310, R312: where none of its WAITs overruns, the schedule of a read is the sum of its committed
increments, whatever the tick, the latency and the lengths of its spins. -/
def Obligations.ReadScheduleIsExactWithoutOverrun : Prop :=
  ∀ (s t : State) (p n : Nat) (q : Slot), q = s.slotAt p →
    s.noOverrun (readDelays q n) = true →
    exec (.rddata p n) s = .next t ∨ (n = 1 ∧ exec (.rdreg p) s = .next t) → t.doneOk →
    t.tl.sched.toNat = s.tl.sched.toNat + s.tl.timing.toNat + committed (readDelays q n)

/-! ## Rules over all transfers -/

/-- R190, R220: how many port transactions a completed transfer makes. -/
def Obligations.TransactionCounts : Prop :=
  ∀ (s t : State) (p n : Nat) (imm : Byte) (q : Slot), q = s.slotAt p → t.doneOk →
    (exec (.wrdata p n) s = .next t →
      t.port.tx.length = s.port.tx.length + (6 + 4 * n * q.bpc.groups)) ∧
    (exec (.wrcmd p imm) s = .next t →
      t.port.tx.length = s.port.tx.length + (6 + 4 * q.bpc.groups)) ∧
    (exec (.rddata p n) s = .next t →
      t.port.tx.length = s.port.tx.length
        + ((match q.variant with | .a => 4 | .b => 3) + 5 * n * q.bpc.groups)) ∧
    (exec (.rdreg p) s = .next t →
      t.port.tx.length = s.port.tx.length
        + ((match q.variant with | .a => 4 | .b => 3) + 5 * q.bpc.groups))

/-- R75: a command only adds to the log, and no transaction it adds names a pin above 27. -/
def Obligations.CommandsNameUsablePinsOnly : Prop :=
  ∀ (i : Instr) (s t : State), exec i s = .next t →
    ∃ l, t.port.tx = s.port.tx ++ l ∧ ∀ x ∈ l, x.usable = true

/-- R200: reads change no pin's direction; a completed write and a completed CREATE leave the slot's data
lines inputs. -/
def Obligations.DataLinesAreReleased : Prop :=
  ∀ (s t : State) (p n : Nat) (imm : Byte),
    (exec (.rddata p n) s = .next t ∨ exec (.rdreg p) s = .next t → t.port.dir = s.port.dir) ∧
    (exec (.wrdata p n) s = .next t ∨ exec (.wrcmd p imm) s = .next t → t.doneOk →
      disjoint t.port.dir (s.slotAt p).dataMask = true) ∧
    (exec (.create p) s = .next t → t.doneOk →
      disjoint t.port.dir s.regs.staging.profile.dataMask = true)

/-- R204: after a completed transfer the direction line is at the host-drives level, `rscd` is at the level
the transfer's setup gave it and the strobe is deasserted, each where no role written later shares its pin
(R136 (c)): in variant B the direction line idles at the strobe's own deasserted level. -/
def Obligations.WriteModeDefaultAfterTransfers : Prop :=
  ∀ (s t : State) (p n : Nat) (imm : Byte) (q : Slot) (kind : Kind), q = s.slotAt p → t.doneOk →
    ((exec (.wrdata p n) s = .next t ∧ kind = .data) ∨ (exec (.wrcmd p imm) s = .next t ∧ kind = .cmdreg) ∨
      (exec (.rddata p n) s = .next t ∧ kind = .data) ∨ (exec (.rdreg p) s = .next t ∧ kind = .cmdreg)) →
    (∀ r : Fin 28, q.rwrd = some r → t.port.out.getLsbD r.val = q.hostLvl s.params) ∧
    (∀ c : Fin 28, q.rscd = some c →
      disjoint (pinBit q.rscd) (q.dataMask ||| pinBit q.enwr ||| pinBit q.rwrd) = true →
      t.port.out.getLsbD c.val = q.rsLvl s.params kind) ∧
    (∀ e : Fin 28, q.enwr = some e → 1 ≤ n →
      exec (.wrdata p n) s = .next t ∨ exec (.wrcmd p imm) s = .next t →
      disjoint (pinBit q.enwr) (q.dataMask ||| pinBit q.rwrd) = true →
      t.port.out.getLsbD e.val = q.nLvl) ∧
    (∀ e : Fin 28, q.rstb s.params = some e → 1 ≤ n →
      exec (.rddata p n) s = .next t ∨ exec (.rdreg p) s = .next t →
      (q.variant = .b ∨ disjoint (pinBit (q.rstb s.params)) (pinBit q.rwrd) = true) →
      t.port.out.getLsbD e.val = q.nLvl)

/-- R205, R206, R228, R229: what a transfer leaves alone, interrupted by a host move or not. -/
def Obligations.TransfersLeaveTheRestAlone : Prop :=
  ∀ (i : Instr) (s t : State) (p n : Nat) (imm : Byte),
    i = .wrdata p n ∨ i = .wrcmd p imm ∨ i = .rddata p n ∨ i = .rdreg p → exec i s = .next t →
    t.regs.cmd = s.regs.cmd ∧ t.regs.lost = s.regs.lost ∧ t.regs.ptr = s.regs.ptr ∧
    t.regs.staging = s.regs.staging ∧ (i ≠ .rdreg p → t.regs.rdval = s.regs.rdval) ∧
    t.slots = s.slots ∧ t.bufEpoch = s.bufEpoch ∧ t.params = s.params ∧ t.script = s.script ∧
    t.reads = s.reads ∧
    (i ≠ .rddata p n → ∀ a, t.bufRead a = s.bufRead a) ∧
    (i = .rddata p n → ∀ a, n ≤ a → t.bufRead a = s.bufRead a)

/-! ## The whole machine -/

/-- R54, R290-R292: what reset leaves; the port is not reset. -/
def Obligations.ResetLeavesTheStatedValues : Prop :=
  (∀ (s : State) (rest : List HostMove), s.lands .reset rest → ∃ t, step s = .next t ∧
    t.regs = HostRegs.reset ∧ (∀ n, (t.slotAt n).valid = false) ∧ t.tl = ⟨0, 0⟩ ∧ t.mono = 0 ∧
    t.port = s.port ∧ t.script = rest ∧ t.params = s.params) ∧
  (∀ t : State, (t = State.reset ∨ ∃ s : State, t = s.resetNow) →
    (∀ off ∈ [0x00, 0x04, 0x08, 0x0C, 0x14, 0x44, 0x48, 0x4C, 0x50, 0x54, 0x58, 0x5C, 0x60, 0x64, 0x80],
      t.regWord off = 0) ∧
    (∀ off ∈ [0x18, 0x1C, 0x20, 0x24, 0x28, 0x2C, 0x30, 0x34, 0x38, 0x3C, 0x40],
      t.regWord off = 0xFFFFFFFF))

/-- The invariant holds right after reset. It rests on log entry 2 for the parameter values. -/
def Obligations.InvariantHoldsAtReset : Prop := State.reset.Inv

/-- Every step keeps the invariant: BUF stays in canonical form and within its size, PTR stays inside BUF,
a valid slot's width is the one its pins give (R45), `tl.sched` never runs ahead of the timebase (R166), no
transaction names a pin above 27 (R75), an idle sequencer holds nothing (R51), a WAIT spins only short of
its deadline (R171). -/
def Obligations.EveryStepKeepsTheInvariant : Prop :=
  ∀ s t : State, s.Inv → step s = .next t → t.Inv

/-- R76, R79, R50: where a host move lands inside a command, the command stops between two steps, inside a
spin or not, and what is left of it, resumed, ends as the whole command ends undisturbed. -/
def Obligations.ResumedCommandEndsAsIfUndisturbed : Prop :=
  ∀ (i : Instr) (s t : State) (script : List HostMove), s.slots.length = s.params.numProfiles →
    decode s.regs.cmd = .ok i → exec i { s with script := script } = .next t → t.regs.busy = true →
    step { t with script := [] } = exec i { s with script := [] }

/-- R82, R297: a staging register written once a command is accepted changes nothing of that command: what
is left of it runs as it would have, the staging registers apart. -/
def Obligations.StagingWritesDoNotChangeTheRunningCommand : Prop :=
  ∀ (s t : State) (r : Staging), s.resume = .next t → (s.stage r).resume = .next (t.stage r)

/-- THE MODEL'S CHOICE of what a step is while nothing moves (log entry 19): one rising edge of `clk`, by
which MONO_NS grows by P_NS_PER_TICK (R49), and nothing else. -/
def Obligations.IdleStepIsOneClockEdge : Prop :=
  ∀ s : State, s.regs.busy = false → s.script = [] →
    s.mono.toNat + s.params.nsPerTick < timeLimit →
    ∃ t, step s = .next t ∧ t.mono.toNat = s.mono.toNat + s.params.nsPerTick ∧
      t = { s with mono := t.mono }
end

