-- ==== Sys2Proof/Laws/State.lean ====
section
/-! SUPPORT. One lemma per field per update of the state, each true by `rfl`: no later proof unfolds a
record update. -/

namespace Sys2Proof.Machine

/-! ### `portMode` -/

@[simp] theorem State.portMode_regs (s : State) (m : Word) (d : PinMode) :
    (s.portMode m d).regs = s.regs := rfl

@[simp] theorem State.portMode_slots (s : State) (m : Word) (d : PinMode) :
    (s.portMode m d).slots = s.slots := rfl

@[simp] theorem State.portMode_tl (s : State) (m : Word) (d : PinMode) :
    (s.portMode m d).tl = s.tl := rfl

@[simp] theorem State.portMode_mono (s : State) (m : Word) (d : PinMode) :
    (s.portMode m d).mono = s.mono := rfl

@[simp] theorem State.portMode_ctl (s : State) (m : Word) (d : PinMode) :
    (s.portMode m d).ctl = s.ctl := rfl

@[simp] theorem State.portMode_buf (s : State) (m : Word) (d : PinMode) :
    (s.portMode m d).buf = s.buf := rfl

@[simp] theorem State.portMode_bufEpoch (s : State) (m : Word) (d : PinMode) :
    (s.portMode m d).bufEpoch = s.bufEpoch := rfl

@[simp] theorem State.portMode_port_out (s : State) (m : Word) (d : PinMode) :
    (s.portMode m d).port.out = s.port.out := rfl

@[simp] theorem State.portMode_port_tx (s : State) (m : Word) (d : PinMode) :
    (s.portMode m d).port.tx = s.port.tx ++ [.mode m d] := rfl

@[simp] theorem State.portMode_params (s : State) (m : Word) (d : PinMode) :
    (s.portMode m d).params = s.params := rfl

@[simp] theorem State.portMode_env (s : State) (m : Word) (d : PinMode) :
    (s.portMode m d).env = s.env := rfl

@[simp] theorem State.portMode_script (s : State) (m : Word) (d : PinMode) :
    (s.portMode m d).script = s.script := rfl

@[simp] theorem State.portMode_reads (s : State) (m : Word) (d : PinMode) :
    (s.portMode m d).reads = s.reads := rfl

/-! ### `portClr` -/

@[simp] theorem State.portClr_regs (s : State) (m : Word) :
    (s.portClr m).regs = s.regs := rfl

@[simp] theorem State.portClr_slots (s : State) (m : Word) :
    (s.portClr m).slots = s.slots := rfl

@[simp] theorem State.portClr_tl (s : State) (m : Word) :
    (s.portClr m).tl = s.tl := rfl

@[simp] theorem State.portClr_mono (s : State) (m : Word) :
    (s.portClr m).mono = s.mono := rfl

@[simp] theorem State.portClr_ctl (s : State) (m : Word) :
    (s.portClr m).ctl = s.ctl := rfl

@[simp] theorem State.portClr_buf (s : State) (m : Word) :
    (s.portClr m).buf = s.buf := rfl

@[simp] theorem State.portClr_bufEpoch (s : State) (m : Word) :
    (s.portClr m).bufEpoch = s.bufEpoch := rfl

@[simp] theorem State.portClr_port_out (s : State) (m : Word) :
    (s.portClr m).port.out = s.port.out &&& ~~~m := rfl

@[simp] theorem State.portClr_port_dir (s : State) (m : Word) :
    (s.portClr m).port.dir = s.port.dir := rfl

@[simp] theorem State.portClr_port_tx (s : State) (m : Word) :
    (s.portClr m).port.tx = s.port.tx ++ [.clr m] := rfl

@[simp] theorem State.portClr_params (s : State) (m : Word) :
    (s.portClr m).params = s.params := rfl

@[simp] theorem State.portClr_env (s : State) (m : Word) :
    (s.portClr m).env = s.env := rfl

@[simp] theorem State.portClr_script (s : State) (m : Word) :
    (s.portClr m).script = s.script := rfl

@[simp] theorem State.portClr_reads (s : State) (m : Word) :
    (s.portClr m).reads = s.reads := rfl

/-! ### `portSet` -/

@[simp] theorem State.portSet_regs (s : State) (m : Word) :
    (s.portSet m).regs = s.regs := rfl

@[simp] theorem State.portSet_slots (s : State) (m : Word) :
    (s.portSet m).slots = s.slots := rfl

@[simp] theorem State.portSet_tl (s : State) (m : Word) :
    (s.portSet m).tl = s.tl := rfl

@[simp] theorem State.portSet_mono (s : State) (m : Word) :
    (s.portSet m).mono = s.mono := rfl

@[simp] theorem State.portSet_ctl (s : State) (m : Word) :
    (s.portSet m).ctl = s.ctl := rfl

@[simp] theorem State.portSet_buf (s : State) (m : Word) :
    (s.portSet m).buf = s.buf := rfl

@[simp] theorem State.portSet_bufEpoch (s : State) (m : Word) :
    (s.portSet m).bufEpoch = s.bufEpoch := rfl

@[simp] theorem State.portSet_port_out (s : State) (m : Word) :
    (s.portSet m).port.out = s.port.out ||| m := rfl

@[simp] theorem State.portSet_port_dir (s : State) (m : Word) :
    (s.portSet m).port.dir = s.port.dir := rfl

@[simp] theorem State.portSet_port_tx (s : State) (m : Word) :
    (s.portSet m).port.tx = s.port.tx ++ [.set m] := rfl

@[simp] theorem State.portSet_params (s : State) (m : Word) :
    (s.portSet m).params = s.params := rfl

@[simp] theorem State.portSet_env (s : State) (m : Word) :
    (s.portSet m).env = s.env := rfl

@[simp] theorem State.portSet_script (s : State) (m : Word) :
    (s.portSet m).script = s.script := rfl

@[simp] theorem State.portSet_reads (s : State) (m : Word) :
    (s.portSet m).reads = s.reads := rfl

/-! ### `portRead` -/

@[simp] theorem State.portRead_regs (s : State) :
    (s.portRead).regs = s.regs := rfl

@[simp] theorem State.portRead_slots (s : State) :
    (s.portRead).slots = s.slots := rfl

@[simp] theorem State.portRead_tl (s : State) :
    (s.portRead).tl = s.tl := rfl

@[simp] theorem State.portRead_mono (s : State) :
    (s.portRead).mono = s.mono := rfl

@[simp] theorem State.portRead_ctl_upc (s : State) :
    (s.portRead).ctl.upc = s.ctl.upc := rfl

@[simp] theorem State.portRead_ctl_steps (s : State) :
    (s.portRead).ctl.steps = s.ctl.steps := rfl

@[simp] theorem State.portRead_ctl_spin (s : State) :
    (s.portRead).ctl.spin = s.ctl.spin := rfl

@[simp] theorem State.portRead_ctl_i (s : State) :
    (s.portRead).ctl.i = s.ctl.i := rfl

@[simp] theorem State.portRead_ctl_k (s : State) :
    (s.portRead).ctl.k = s.ctl.k := rfl

@[simp] theorem State.portRead_ctl_b (s : State) :
    (s.portRead).ctl.b = s.ctl.b := rfl

@[simp] theorem State.portRead_ctl_g (s : State) :
    (s.portRead).ctl.g = s.ctl.g := rfl

@[simp] theorem State.portRead_ctl_acc (s : State) :
    (s.portRead).ctl.acc = s.ctl.acc := rfl

@[simp] theorem State.portRead_ctl_v (s : State) :
    (s.portRead).ctl.v = s.env.bank.value Sys2Proof.Config.bank := rfl

@[simp] theorem State.portRead_ctl_masks (s : State) :
    (s.portRead).ctl.masks = s.ctl.masks := rfl

@[simp] theorem State.portRead_ctl_staged (s : State) :
    (s.portRead).ctl.staged = s.ctl.staged := rfl

@[simp] theorem State.portRead_buf (s : State) :
    (s.portRead).buf = s.buf := rfl

@[simp] theorem State.portRead_bufEpoch (s : State) :
    (s.portRead).bufEpoch = s.bufEpoch := rfl

@[simp] theorem State.portRead_port_out (s : State) :
    (s.portRead).port.out = s.port.out := rfl

@[simp] theorem State.portRead_port_dir (s : State) :
    (s.portRead).port.dir = s.port.dir := rfl

@[simp] theorem State.portRead_port_tx (s : State) :
    (s.portRead).port.tx = s.port.tx ++ [.read (s.env.bank.value Sys2Proof.Config.bank)] := rfl

@[simp] theorem State.portRead_params (s : State) :
    (s.portRead).params = s.params := rfl

@[simp] theorem State.portRead_env_elapsed (s : State) :
    (s.portRead).env.elapsed = s.env.elapsed := rfl

@[simp] theorem State.portRead_env_spins (s : State) :
    (s.portRead).env.spins = s.env.spins := rfl

@[simp] theorem State.portRead_env_bank (s : State) :
    (s.portRead).env.bank = s.env.bank.rest := rfl

@[simp] theorem State.portRead_env_undef (s : State) :
    (s.portRead).env.undef = s.env.undef := rfl

@[simp] theorem State.portRead_env_avail (s : State) :
    (s.portRead).env.avail = s.env.avail := rfl

@[simp] theorem State.portRead_script (s : State) :
    (s.portRead).script = s.script := rfl

@[simp] theorem State.portRead_reads (s : State) :
    (s.portRead).reads = s.reads := rfl

/-! ### `advance` -/

@[simp] theorem State.advance_regs (s : State) (d : Word) :
    (s.advance d).regs = s.regs := rfl

@[simp] theorem State.advance_slots (s : State) (d : Word) :
    (s.advance d).slots = s.slots := rfl

@[simp] theorem State.advance_tl_sched (s : State) (d : Word) :
    (s.advance d).tl.sched = s.tl.sched := rfl

@[simp] theorem State.advance_tl_timing (s : State) (d : Word) :
    (s.advance d).tl.timing = d := rfl

@[simp] theorem State.advance_mono (s : State) (d : Word) :
    (s.advance d).mono = s.mono := rfl

@[simp] theorem State.advance_ctl (s : State) (d : Word) :
    (s.advance d).ctl = s.ctl := rfl

@[simp] theorem State.advance_buf (s : State) (d : Word) :
    (s.advance d).buf = s.buf := rfl

@[simp] theorem State.advance_bufEpoch (s : State) (d : Word) :
    (s.advance d).bufEpoch = s.bufEpoch := rfl

@[simp] theorem State.advance_port (s : State) (d : Word) :
    (s.advance d).port = s.port := rfl

@[simp] theorem State.advance_params (s : State) (d : Word) :
    (s.advance d).params = s.params := rfl

@[simp] theorem State.advance_env (s : State) (d : Word) :
    (s.advance d).env = s.env := rfl

@[simp] theorem State.advance_script (s : State) (d : Word) :
    (s.advance d).script = s.script := rfl

@[simp] theorem State.advance_reads (s : State) (d : Word) :
    (s.advance d).reads = s.reads := rfl

/-! ### `setSched` -/

@[simp] theorem State.setSched_regs (s : State) (t : Nat) :
    (s.setSched t).regs = s.regs := rfl

@[simp] theorem State.setSched_slots (s : State) (t : Nat) :
    (s.setSched t).slots = s.slots := rfl

@[simp] theorem State.setSched_tl_sched (s : State) (t : Nat) :
    (s.setSched t).tl.sched = BitVec.ofNat 64 t := rfl

@[simp] theorem State.setSched_tl_timing (s : State) (t : Nat) :
    (s.setSched t).tl.timing = s.tl.timing := rfl

@[simp] theorem State.setSched_mono (s : State) (t : Nat) :
    (s.setSched t).mono = s.mono := rfl

@[simp] theorem State.setSched_ctl (s : State) (t : Nat) :
    (s.setSched t).ctl = s.ctl := rfl

@[simp] theorem State.setSched_buf (s : State) (t : Nat) :
    (s.setSched t).buf = s.buf := rfl

@[simp] theorem State.setSched_bufEpoch (s : State) (t : Nat) :
    (s.setSched t).bufEpoch = s.bufEpoch := rfl

@[simp] theorem State.setSched_port (s : State) (t : Nat) :
    (s.setSched t).port = s.port := rfl

@[simp] theorem State.setSched_params (s : State) (t : Nat) :
    (s.setSched t).params = s.params := rfl

@[simp] theorem State.setSched_env (s : State) (t : Nat) :
    (s.setSched t).env = s.env := rfl

@[simp] theorem State.setSched_script (s : State) (t : Nat) :
    (s.setSched t).script = s.script := rfl

@[simp] theorem State.setSched_reads (s : State) (t : Nat) :
    (s.setSched t).reads = s.reads := rfl

/-! ### `dropElapsed` -/

@[simp] theorem State.dropElapsed_regs (s : State) :
    (s.dropElapsed).regs = s.regs := rfl

@[simp] theorem State.dropElapsed_slots (s : State) :
    (s.dropElapsed).slots = s.slots := rfl

@[simp] theorem State.dropElapsed_tl (s : State) :
    (s.dropElapsed).tl = s.tl := rfl

@[simp] theorem State.dropElapsed_mono (s : State) :
    (s.dropElapsed).mono = s.mono := rfl

@[simp] theorem State.dropElapsed_ctl (s : State) :
    (s.dropElapsed).ctl = s.ctl := rfl

@[simp] theorem State.dropElapsed_buf (s : State) :
    (s.dropElapsed).buf = s.buf := rfl

@[simp] theorem State.dropElapsed_bufEpoch (s : State) :
    (s.dropElapsed).bufEpoch = s.bufEpoch := rfl

@[simp] theorem State.dropElapsed_port (s : State) :
    (s.dropElapsed).port = s.port := rfl

@[simp] theorem State.dropElapsed_params (s : State) :
    (s.dropElapsed).params = s.params := rfl

@[simp] theorem State.dropElapsed_env_elapsed (s : State) :
    (s.dropElapsed).env.elapsed = s.env.elapsed.rest := rfl

@[simp] theorem State.dropElapsed_env_spins (s : State) :
    (s.dropElapsed).env.spins = s.env.spins := rfl

@[simp] theorem State.dropElapsed_env_bank (s : State) :
    (s.dropElapsed).env.bank = s.env.bank := rfl

@[simp] theorem State.dropElapsed_env_undef (s : State) :
    (s.dropElapsed).env.undef = s.env.undef := rfl

@[simp] theorem State.dropElapsed_env_avail (s : State) :
    (s.dropElapsed).env.avail = s.env.avail := rfl

@[simp] theorem State.dropElapsed_script (s : State) :
    (s.dropElapsed).script = s.script := rfl

@[simp] theorem State.dropElapsed_reads (s : State) :
    (s.dropElapsed).reads = s.reads := rfl

/-! ### `dropSpins` -/

@[simp] theorem State.dropSpins_regs (s : State) :
    (s.dropSpins).regs = s.regs := rfl

@[simp] theorem State.dropSpins_slots (s : State) :
    (s.dropSpins).slots = s.slots := rfl

@[simp] theorem State.dropSpins_tl (s : State) :
    (s.dropSpins).tl = s.tl := rfl

@[simp] theorem State.dropSpins_mono (s : State) :
    (s.dropSpins).mono = s.mono := rfl

@[simp] theorem State.dropSpins_ctl (s : State) :
    (s.dropSpins).ctl = s.ctl := rfl

@[simp] theorem State.dropSpins_buf (s : State) :
    (s.dropSpins).buf = s.buf := rfl

@[simp] theorem State.dropSpins_bufEpoch (s : State) :
    (s.dropSpins).bufEpoch = s.bufEpoch := rfl

@[simp] theorem State.dropSpins_port (s : State) :
    (s.dropSpins).port = s.port := rfl

@[simp] theorem State.dropSpins_params (s : State) :
    (s.dropSpins).params = s.params := rfl

@[simp] theorem State.dropSpins_env_elapsed (s : State) :
    (s.dropSpins).env.elapsed = s.env.elapsed := rfl

@[simp] theorem State.dropSpins_env_spins (s : State) :
    (s.dropSpins).env.spins = s.env.spins.rest := rfl

@[simp] theorem State.dropSpins_env_bank (s : State) :
    (s.dropSpins).env.bank = s.env.bank := rfl

@[simp] theorem State.dropSpins_env_undef (s : State) :
    (s.dropSpins).env.undef = s.env.undef := rfl

@[simp] theorem State.dropSpins_env_avail (s : State) :
    (s.dropSpins).env.avail = s.env.avail := rfl

@[simp] theorem State.dropSpins_script (s : State) :
    (s.dropSpins).script = s.script := rfl

@[simp] theorem State.dropSpins_reads (s : State) :
    (s.dropSpins).reads = s.reads := rfl

/-! ### `setSpin` -/

@[simp] theorem State.setSpin_regs (s : State) (x : Option Spin) :
    (s.setSpin x).regs = s.regs := rfl

@[simp] theorem State.setSpin_slots (s : State) (x : Option Spin) :
    (s.setSpin x).slots = s.slots := rfl

@[simp] theorem State.setSpin_tl (s : State) (x : Option Spin) :
    (s.setSpin x).tl = s.tl := rfl

@[simp] theorem State.setSpin_mono (s : State) (x : Option Spin) :
    (s.setSpin x).mono = s.mono := rfl

@[simp] theorem State.setSpin_ctl_upc (s : State) (x : Option Spin) :
    (s.setSpin x).ctl.upc = s.ctl.upc := rfl

@[simp] theorem State.setSpin_ctl_steps (s : State) (x : Option Spin) :
    (s.setSpin x).ctl.steps = s.ctl.steps := rfl

@[simp] theorem State.setSpin_ctl_spin (s : State) (x : Option Spin) :
    (s.setSpin x).ctl.spin = x := rfl

@[simp] theorem State.setSpin_ctl_i (s : State) (x : Option Spin) :
    (s.setSpin x).ctl.i = s.ctl.i := rfl

@[simp] theorem State.setSpin_ctl_k (s : State) (x : Option Spin) :
    (s.setSpin x).ctl.k = s.ctl.k := rfl

@[simp] theorem State.setSpin_ctl_b (s : State) (x : Option Spin) :
    (s.setSpin x).ctl.b = s.ctl.b := rfl

@[simp] theorem State.setSpin_ctl_g (s : State) (x : Option Spin) :
    (s.setSpin x).ctl.g = s.ctl.g := rfl

@[simp] theorem State.setSpin_ctl_acc (s : State) (x : Option Spin) :
    (s.setSpin x).ctl.acc = s.ctl.acc := rfl

@[simp] theorem State.setSpin_ctl_v (s : State) (x : Option Spin) :
    (s.setSpin x).ctl.v = s.ctl.v := rfl

@[simp] theorem State.setSpin_ctl_masks (s : State) (x : Option Spin) :
    (s.setSpin x).ctl.masks = s.ctl.masks := rfl

@[simp] theorem State.setSpin_ctl_staged (s : State) (x : Option Spin) :
    (s.setSpin x).ctl.staged = s.ctl.staged := rfl

@[simp] theorem State.setSpin_buf (s : State) (x : Option Spin) :
    (s.setSpin x).buf = s.buf := rfl

@[simp] theorem State.setSpin_bufEpoch (s : State) (x : Option Spin) :
    (s.setSpin x).bufEpoch = s.bufEpoch := rfl

@[simp] theorem State.setSpin_port (s : State) (x : Option Spin) :
    (s.setSpin x).port = s.port := rfl

@[simp] theorem State.setSpin_params (s : State) (x : Option Spin) :
    (s.setSpin x).params = s.params := rfl

@[simp] theorem State.setSpin_env (s : State) (x : Option Spin) :
    (s.setSpin x).env = s.env := rfl

@[simp] theorem State.setSpin_script (s : State) (x : Option Spin) :
    (s.setSpin x).script = s.script := rfl

@[simp] theorem State.setSpin_reads (s : State) (x : Option Spin) :
    (s.setSpin x).reads = s.reads := rfl

/-! ### `accept` -/

@[simp] theorem State.accept_regs_cmd (s : State) (w : Word) :
    (s.accept w).regs.cmd = w := rfl

@[simp] theorem State.accept_regs_busy (s : State) (w : Word) :
    (s.accept w).regs.busy = true := rfl

@[simp] theorem State.accept_regs_lost (s : State) (w : Word) :
    (s.accept w).regs.lost = false := rfl

@[simp] theorem State.accept_regs_result (s : State) (w : Word) :
    (s.accept w).regs.result = s.regs.result := rfl

@[simp] theorem State.accept_regs_rdval (s : State) (w : Word) :
    (s.accept w).regs.rdval = s.regs.rdval := rfl

@[simp] theorem State.accept_regs_ptr (s : State) (w : Word) :
    (s.accept w).regs.ptr = s.regs.ptr := rfl

@[simp] theorem State.accept_regs_staging (s : State) (w : Word) :
    (s.accept w).regs.staging = s.regs.staging := rfl

@[simp] theorem State.accept_slots (s : State) (w : Word) :
    (s.accept w).slots = s.slots := rfl

@[simp] theorem State.accept_tl (s : State) (w : Word) :
    (s.accept w).tl = s.tl := rfl

@[simp] theorem State.accept_mono (s : State) (w : Word) :
    (s.accept w).mono = s.mono := rfl

@[simp] theorem State.accept_ctl (s : State) (w : Word) :
    (s.accept w).ctl = s.ctl := rfl

@[simp] theorem State.accept_buf (s : State) (w : Word) :
    (s.accept w).buf = s.buf := rfl

@[simp] theorem State.accept_bufEpoch (s : State) (w : Word) :
    (s.accept w).bufEpoch = s.bufEpoch := rfl

@[simp] theorem State.accept_port (s : State) (w : Word) :
    (s.accept w).port = s.port := rfl

@[simp] theorem State.accept_params (s : State) (w : Word) :
    (s.accept w).params = s.params := rfl

@[simp] theorem State.accept_env (s : State) (w : Word) :
    (s.accept w).env = s.env := rfl

@[simp] theorem State.accept_script (s : State) (w : Word) :
    (s.accept w).script = s.script := rfl

@[simp] theorem State.accept_reads (s : State) (w : Word) :
    (s.accept w).reads = s.reads := rfl

/-! ### `begin` -/

@[simp] theorem State.begin_regs_cmd (s : State) :
    (s.begin).regs.cmd = s.regs.cmd := rfl

@[simp] theorem State.begin_regs_busy (s : State) :
    (s.begin).regs.busy = true := rfl

@[simp] theorem State.begin_regs_lost (s : State) :
    (s.begin).regs.lost = s.regs.lost := rfl

@[simp] theorem State.begin_regs_result (s : State) :
    (s.begin).regs.result = s.regs.result := rfl

@[simp] theorem State.begin_regs_rdval (s : State) :
    (s.begin).regs.rdval = s.regs.rdval := rfl

@[simp] theorem State.begin_regs_ptr (s : State) :
    (s.begin).regs.ptr = s.regs.ptr := rfl

@[simp] theorem State.begin_regs_staging (s : State) :
    (s.begin).regs.staging = s.regs.staging := rfl

@[simp] theorem State.begin_slots (s : State) :
    (s.begin).slots = s.slots := rfl

@[simp] theorem State.begin_tl (s : State) :
    (s.begin).tl = s.tl := rfl

@[simp] theorem State.begin_mono (s : State) :
    (s.begin).mono = s.mono := rfl

@[simp] theorem State.begin_ctl (s : State) :
    (s.begin).ctl = { Control.idle with staged := s.regs.staging } := rfl

@[simp] theorem State.begin_buf (s : State) :
    (s.begin).buf = s.buf := rfl

@[simp] theorem State.begin_bufEpoch (s : State) :
    (s.begin).bufEpoch = s.bufEpoch := rfl

@[simp] theorem State.begin_port (s : State) :
    (s.begin).port = s.port := rfl

@[simp] theorem State.begin_params (s : State) :
    (s.begin).params = s.params := rfl

@[simp] theorem State.begin_env (s : State) :
    (s.begin).env = s.env := rfl

@[simp] theorem State.begin_script (s : State) :
    (s.begin).script = s.script := rfl

@[simp] theorem State.begin_reads (s : State) :
    (s.begin).reads = s.reads := rfl

/-! ### `finish` -/

@[simp] theorem State.finish_regs_cmd (s : State) (c : Result) :
    (s.finish c).regs.cmd = s.regs.cmd := rfl

@[simp] theorem State.finish_regs_busy (s : State) (c : Result) :
    (s.finish c).regs.busy = false := rfl

@[simp] theorem State.finish_regs_lost (s : State) (c : Result) :
    (s.finish c).regs.lost = s.regs.lost := rfl

@[simp] theorem State.finish_regs_result (s : State) (c : Result) :
    (s.finish c).regs.result = c := rfl

@[simp] theorem State.finish_regs_rdval (s : State) (c : Result) :
    (s.finish c).regs.rdval = s.regs.rdval := rfl

@[simp] theorem State.finish_regs_ptr (s : State) (c : Result) :
    (s.finish c).regs.ptr = s.regs.ptr := rfl

@[simp] theorem State.finish_regs_staging (s : State) (c : Result) :
    (s.finish c).regs.staging = s.regs.staging := rfl

@[simp] theorem State.finish_slots (s : State) (c : Result) :
    (s.finish c).slots = s.slots := rfl

@[simp] theorem State.finish_tl (s : State) (c : Result) :
    (s.finish c).tl = s.tl := rfl

@[simp] theorem State.finish_mono (s : State) (c : Result) :
    (s.finish c).mono = s.mono := rfl

@[simp] theorem State.finish_ctl (s : State) (c : Result) :
    (s.finish c).ctl = Control.idle := rfl

@[simp] theorem State.finish_buf (s : State) (c : Result) :
    (s.finish c).buf = s.buf := rfl

@[simp] theorem State.finish_bufEpoch (s : State) (c : Result) :
    (s.finish c).bufEpoch = s.bufEpoch := rfl

@[simp] theorem State.finish_port (s : State) (c : Result) :
    (s.finish c).port = s.port := rfl

@[simp] theorem State.finish_params (s : State) (c : Result) :
    (s.finish c).params = s.params := rfl

@[simp] theorem State.finish_env (s : State) (c : Result) :
    (s.finish c).env = s.env := rfl

@[simp] theorem State.finish_script (s : State) (c : Result) :
    (s.finish c).script = s.script := rfl

@[simp] theorem State.finish_reads (s : State) (c : Result) :
    (s.finish c).reads = s.reads := rfl

/-! ### `drop` -/

@[simp] theorem State.drop_regs_cmd (s : State) :
    (s.drop).regs.cmd = s.regs.cmd := rfl

@[simp] theorem State.drop_regs_busy (s : State) :
    (s.drop).regs.busy = s.regs.busy := rfl

@[simp] theorem State.drop_regs_lost (s : State) :
    (s.drop).regs.lost = true := rfl

@[simp] theorem State.drop_regs_result (s : State) :
    (s.drop).regs.result = s.regs.result := rfl

@[simp] theorem State.drop_regs_rdval (s : State) :
    (s.drop).regs.rdval = s.regs.rdval := rfl

@[simp] theorem State.drop_regs_ptr (s : State) :
    (s.drop).regs.ptr = s.regs.ptr := rfl

@[simp] theorem State.drop_regs_staging (s : State) :
    (s.drop).regs.staging = s.regs.staging := rfl

@[simp] theorem State.drop_slots (s : State) :
    (s.drop).slots = s.slots := rfl

@[simp] theorem State.drop_tl (s : State) :
    (s.drop).tl = s.tl := rfl

@[simp] theorem State.drop_mono (s : State) :
    (s.drop).mono = s.mono := rfl

@[simp] theorem State.drop_ctl (s : State) :
    (s.drop).ctl = s.ctl := rfl

@[simp] theorem State.drop_buf (s : State) :
    (s.drop).buf = s.buf := rfl

@[simp] theorem State.drop_bufEpoch (s : State) :
    (s.drop).bufEpoch = s.bufEpoch := rfl

@[simp] theorem State.drop_port (s : State) :
    (s.drop).port = s.port := rfl

@[simp] theorem State.drop_params (s : State) :
    (s.drop).params = s.params := rfl

@[simp] theorem State.drop_env (s : State) :
    (s.drop).env = s.env := rfl

@[simp] theorem State.drop_script (s : State) :
    (s.drop).script = s.script := rfl

@[simp] theorem State.drop_reads (s : State) :
    (s.drop).reads = s.reads := rfl

/-! ### `setSlot` -/

@[simp] theorem State.setSlot_regs (s : State) (p : Nat) (q : Slot) :
    (s.setSlot p q).regs = s.regs := rfl

@[simp] theorem State.setSlot_slots (s : State) (p : Nat) (q : Slot) :
    (s.setSlot p q).slots = s.slots.set p q := rfl

@[simp] theorem State.setSlot_tl (s : State) (p : Nat) (q : Slot) :
    (s.setSlot p q).tl = s.tl := rfl

@[simp] theorem State.setSlot_mono (s : State) (p : Nat) (q : Slot) :
    (s.setSlot p q).mono = s.mono := rfl

@[simp] theorem State.setSlot_ctl (s : State) (p : Nat) (q : Slot) :
    (s.setSlot p q).ctl = s.ctl := rfl

@[simp] theorem State.setSlot_buf (s : State) (p : Nat) (q : Slot) :
    (s.setSlot p q).buf = s.buf := rfl

@[simp] theorem State.setSlot_bufEpoch (s : State) (p : Nat) (q : Slot) :
    (s.setSlot p q).bufEpoch = s.bufEpoch := rfl

@[simp] theorem State.setSlot_port (s : State) (p : Nat) (q : Slot) :
    (s.setSlot p q).port = s.port := rfl

@[simp] theorem State.setSlot_params (s : State) (p : Nat) (q : Slot) :
    (s.setSlot p q).params = s.params := rfl

@[simp] theorem State.setSlot_env (s : State) (p : Nat) (q : Slot) :
    (s.setSlot p q).env = s.env := rfl

@[simp] theorem State.setSlot_script (s : State) (p : Nat) (q : Slot) :
    (s.setSlot p q).script = s.script := rfl

@[simp] theorem State.setSlot_reads (s : State) (p : Nat) (q : Slot) :
    (s.setSlot p q).reads = s.reads := rfl

/-! ### `invalidate` -/

@[simp] theorem State.invalidate_regs (s : State) (p : Nat) :
    (s.invalidate p).regs = s.regs := rfl

@[simp] theorem State.invalidate_slots (s : State) (p : Nat) :
    (s.invalidate p).slots = s.slots.set p { s.slotAt p with valid := false } := rfl

@[simp] theorem State.invalidate_tl (s : State) (p : Nat) :
    (s.invalidate p).tl = s.tl := rfl

@[simp] theorem State.invalidate_mono (s : State) (p : Nat) :
    (s.invalidate p).mono = s.mono := rfl

@[simp] theorem State.invalidate_ctl (s : State) (p : Nat) :
    (s.invalidate p).ctl = s.ctl := rfl

@[simp] theorem State.invalidate_buf (s : State) (p : Nat) :
    (s.invalidate p).buf = s.buf := rfl

@[simp] theorem State.invalidate_bufEpoch (s : State) (p : Nat) :
    (s.invalidate p).bufEpoch = s.bufEpoch := rfl

@[simp] theorem State.invalidate_port (s : State) (p : Nat) :
    (s.invalidate p).port = s.port := rfl

@[simp] theorem State.invalidate_params (s : State) (p : Nat) :
    (s.invalidate p).params = s.params := rfl

@[simp] theorem State.invalidate_env (s : State) (p : Nat) :
    (s.invalidate p).env = s.env := rfl

@[simp] theorem State.invalidate_script (s : State) (p : Nat) :
    (s.invalidate p).script = s.script := rfl

@[simp] theorem State.invalidate_reads (s : State) (p : Nat) :
    (s.invalidate p).reads = s.reads := rfl

/-! ### `bufWrite` -/

@[simp] theorem State.bufWrite_regs (s : State) (i : Nat) (v : Byte) :
    (s.bufWrite i v).regs = s.regs := rfl

@[simp] theorem State.bufWrite_slots (s : State) (i : Nat) (v : Byte) :
    (s.bufWrite i v).slots = s.slots := rfl

@[simp] theorem State.bufWrite_tl (s : State) (i : Nat) (v : Byte) :
    (s.bufWrite i v).tl = s.tl := rfl

@[simp] theorem State.bufWrite_mono (s : State) (i : Nat) (v : Byte) :
    (s.bufWrite i v).mono = s.mono := rfl

@[simp] theorem State.bufWrite_ctl (s : State) (i : Nat) (v : Byte) :
    (s.bufWrite i v).ctl = s.ctl := rfl

@[simp] theorem State.bufWrite_buf (s : State) (i : Nat) (v : Byte) :
    (s.bufWrite i v).buf = Memory.write s.buf i v := rfl

@[simp] theorem State.bufWrite_bufEpoch (s : State) (i : Nat) (v : Byte) :
    (s.bufWrite i v).bufEpoch = s.bufEpoch := rfl

@[simp] theorem State.bufWrite_port (s : State) (i : Nat) (v : Byte) :
    (s.bufWrite i v).port = s.port := rfl

@[simp] theorem State.bufWrite_params (s : State) (i : Nat) (v : Byte) :
    (s.bufWrite i v).params = s.params := rfl

@[simp] theorem State.bufWrite_env (s : State) (i : Nat) (v : Byte) :
    (s.bufWrite i v).env = s.env := rfl

@[simp] theorem State.bufWrite_script (s : State) (i : Nat) (v : Byte) :
    (s.bufWrite i v).script = s.script := rfl

@[simp] theorem State.bufWrite_reads (s : State) (i : Nat) (v : Byte) :
    (s.bufWrite i v).reads = s.reads := rfl

/-! ### `setMasks` -/

@[simp] theorem State.setMasks_regs (s : State) (m : Masks) :
    (s.setMasks m).regs = s.regs := rfl

@[simp] theorem State.setMasks_slots (s : State) (m : Masks) :
    (s.setMasks m).slots = s.slots := rfl

@[simp] theorem State.setMasks_tl (s : State) (m : Masks) :
    (s.setMasks m).tl = s.tl := rfl

@[simp] theorem State.setMasks_mono (s : State) (m : Masks) :
    (s.setMasks m).mono = s.mono := rfl

@[simp] theorem State.setMasks_ctl_upc (s : State) (m : Masks) :
    (s.setMasks m).ctl.upc = s.ctl.upc := rfl

@[simp] theorem State.setMasks_ctl_steps (s : State) (m : Masks) :
    (s.setMasks m).ctl.steps = s.ctl.steps := rfl

@[simp] theorem State.setMasks_ctl_spin (s : State) (m : Masks) :
    (s.setMasks m).ctl.spin = s.ctl.spin := rfl

@[simp] theorem State.setMasks_ctl_i (s : State) (m : Masks) :
    (s.setMasks m).ctl.i = s.ctl.i := rfl

@[simp] theorem State.setMasks_ctl_k (s : State) (m : Masks) :
    (s.setMasks m).ctl.k = s.ctl.k := rfl

@[simp] theorem State.setMasks_ctl_b (s : State) (m : Masks) :
    (s.setMasks m).ctl.b = s.ctl.b := rfl

@[simp] theorem State.setMasks_ctl_g (s : State) (m : Masks) :
    (s.setMasks m).ctl.g = s.ctl.g := rfl

@[simp] theorem State.setMasks_ctl_acc (s : State) (m : Masks) :
    (s.setMasks m).ctl.acc = s.ctl.acc := rfl

@[simp] theorem State.setMasks_ctl_v (s : State) (m : Masks) :
    (s.setMasks m).ctl.v = s.ctl.v := rfl

@[simp] theorem State.setMasks_ctl_masks (s : State) (m : Masks) :
    (s.setMasks m).ctl.masks = m := rfl

@[simp] theorem State.setMasks_ctl_staged (s : State) (m : Masks) :
    (s.setMasks m).ctl.staged = s.ctl.staged := rfl

@[simp] theorem State.setMasks_buf (s : State) (m : Masks) :
    (s.setMasks m).buf = s.buf := rfl

@[simp] theorem State.setMasks_bufEpoch (s : State) (m : Masks) :
    (s.setMasks m).bufEpoch = s.bufEpoch := rfl

@[simp] theorem State.setMasks_port (s : State) (m : Masks) :
    (s.setMasks m).port = s.port := rfl

@[simp] theorem State.setMasks_params (s : State) (m : Masks) :
    (s.setMasks m).params = s.params := rfl

@[simp] theorem State.setMasks_env (s : State) (m : Masks) :
    (s.setMasks m).env = s.env := rfl

@[simp] theorem State.setMasks_script (s : State) (m : Masks) :
    (s.setMasks m).script = s.script := rfl

@[simp] theorem State.setMasks_reads (s : State) (m : Masks) :
    (s.setMasks m).reads = s.reads := rfl

/-! ### `loadByte` -/

@[simp] theorem State.loadByte_regs (s : State) (i : Nat) (src : ByteSource) :
    (s.loadByte i src).regs = s.regs := rfl

@[simp] theorem State.loadByte_slots (s : State) (i : Nat) (src : ByteSource) :
    (s.loadByte i src).slots = s.slots := rfl

@[simp] theorem State.loadByte_tl (s : State) (i : Nat) (src : ByteSource) :
    (s.loadByte i src).tl = s.tl := rfl

@[simp] theorem State.loadByte_mono (s : State) (i : Nat) (src : ByteSource) :
    (s.loadByte i src).mono = s.mono := rfl

@[simp] theorem State.loadByte_ctl_upc (s : State) (i : Nat) (src : ByteSource) :
    (s.loadByte i src).ctl.upc = s.ctl.upc := rfl

@[simp] theorem State.loadByte_ctl_steps (s : State) (i : Nat) (src : ByteSource) :
    (s.loadByte i src).ctl.steps = s.ctl.steps := rfl

@[simp] theorem State.loadByte_ctl_spin (s : State) (i : Nat) (src : ByteSource) :
    (s.loadByte i src).ctl.spin = s.ctl.spin := rfl

@[simp] theorem State.loadByte_ctl_i (s : State) (i : Nat) (src : ByteSource) :
    (s.loadByte i src).ctl.i = i := rfl

@[simp] theorem State.loadByte_ctl_k (s : State) (i : Nat) (src : ByteSource) :
    (s.loadByte i src).ctl.k = s.ctl.k := rfl

@[simp] theorem State.loadByte_ctl_b (s : State) (i : Nat) (src : ByteSource) :
    (s.loadByte i src).ctl.b = s.byteAt src i := rfl

@[simp] theorem State.loadByte_ctl_g (s : State) (i : Nat) (src : ByteSource) :
    (s.loadByte i src).ctl.g = s.ctl.g := rfl

@[simp] theorem State.loadByte_ctl_acc (s : State) (i : Nat) (src : ByteSource) :
    (s.loadByte i src).ctl.acc = s.ctl.acc := rfl

@[simp] theorem State.loadByte_ctl_v (s : State) (i : Nat) (src : ByteSource) :
    (s.loadByte i src).ctl.v = s.ctl.v := rfl

@[simp] theorem State.loadByte_ctl_masks (s : State) (i : Nat) (src : ByteSource) :
    (s.loadByte i src).ctl.masks = s.ctl.masks := rfl

@[simp] theorem State.loadByte_ctl_staged (s : State) (i : Nat) (src : ByteSource) :
    (s.loadByte i src).ctl.staged = s.ctl.staged := rfl

@[simp] theorem State.loadByte_buf (s : State) (i : Nat) (src : ByteSource) :
    (s.loadByte i src).buf = s.buf := rfl

@[simp] theorem State.loadByte_bufEpoch (s : State) (i : Nat) (src : ByteSource) :
    (s.loadByte i src).bufEpoch = s.bufEpoch := rfl

@[simp] theorem State.loadByte_port (s : State) (i : Nat) (src : ByteSource) :
    (s.loadByte i src).port = s.port := rfl

@[simp] theorem State.loadByte_params (s : State) (i : Nat) (src : ByteSource) :
    (s.loadByte i src).params = s.params := rfl

@[simp] theorem State.loadByte_env (s : State) (i : Nat) (src : ByteSource) :
    (s.loadByte i src).env = s.env := rfl

@[simp] theorem State.loadByte_script (s : State) (i : Nat) (src : ByteSource) :
    (s.loadByte i src).script = s.script := rfl

@[simp] theorem State.loadByte_reads (s : State) (i : Nat) (src : ByteSource) :
    (s.loadByte i src).reads = s.reads := rfl

/-! ### `takeGroup` -/

@[simp] theorem State.takeGroup_regs (s : State) (q : Slot) (k : Nat) :
    (s.takeGroup q k).regs = s.regs := rfl

@[simp] theorem State.takeGroup_slots (s : State) (q : Slot) (k : Nat) :
    (s.takeGroup q k).slots = s.slots := rfl

@[simp] theorem State.takeGroup_tl (s : State) (q : Slot) (k : Nat) :
    (s.takeGroup q k).tl = s.tl := rfl

@[simp] theorem State.takeGroup_mono (s : State) (q : Slot) (k : Nat) :
    (s.takeGroup q k).mono = s.mono := rfl

@[simp] theorem State.takeGroup_ctl_upc (s : State) (q : Slot) (k : Nat) :
    (s.takeGroup q k).ctl.upc = s.ctl.upc := rfl

@[simp] theorem State.takeGroup_ctl_steps (s : State) (q : Slot) (k : Nat) :
    (s.takeGroup q k).ctl.steps = s.ctl.steps := rfl

@[simp] theorem State.takeGroup_ctl_spin (s : State) (q : Slot) (k : Nat) :
    (s.takeGroup q k).ctl.spin = s.ctl.spin := rfl

@[simp] theorem State.takeGroup_ctl_i (s : State) (q : Slot) (k : Nat) :
    (s.takeGroup q k).ctl.i = s.ctl.i := rfl

@[simp] theorem State.takeGroup_ctl_k (s : State) (q : Slot) (k : Nat) :
    (s.takeGroup q k).ctl.k = k := rfl

@[simp] theorem State.takeGroup_ctl_b (s : State) (q : Slot) (k : Nat) :
    (s.takeGroup q k).ctl.b = q.shiftOut s.ctl.b := rfl

@[simp] theorem State.takeGroup_ctl_g (s : State) (q : Slot) (k : Nat) :
    (s.takeGroup q k).ctl.g = q.topGroup s.ctl.b := rfl

@[simp] theorem State.takeGroup_ctl_acc (s : State) (q : Slot) (k : Nat) :
    (s.takeGroup q k).ctl.acc = s.ctl.acc := rfl

@[simp] theorem State.takeGroup_ctl_v (s : State) (q : Slot) (k : Nat) :
    (s.takeGroup q k).ctl.v = s.ctl.v := rfl

@[simp] theorem State.takeGroup_ctl_masks (s : State) (q : Slot) (k : Nat) :
    (s.takeGroup q k).ctl.masks = q.assertMasks (q.topGroup s.ctl.b) := rfl

@[simp] theorem State.takeGroup_ctl_staged (s : State) (q : Slot) (k : Nat) :
    (s.takeGroup q k).ctl.staged = s.ctl.staged := rfl

@[simp] theorem State.takeGroup_buf (s : State) (q : Slot) (k : Nat) :
    (s.takeGroup q k).buf = s.buf := rfl

@[simp] theorem State.takeGroup_bufEpoch (s : State) (q : Slot) (k : Nat) :
    (s.takeGroup q k).bufEpoch = s.bufEpoch := rfl

@[simp] theorem State.takeGroup_port (s : State) (q : Slot) (k : Nat) :
    (s.takeGroup q k).port = s.port := rfl

@[simp] theorem State.takeGroup_params (s : State) (q : Slot) (k : Nat) :
    (s.takeGroup q k).params = s.params := rfl

@[simp] theorem State.takeGroup_env (s : State) (q : Slot) (k : Nat) :
    (s.takeGroup q k).env = s.env := rfl

@[simp] theorem State.takeGroup_script (s : State) (q : Slot) (k : Nat) :
    (s.takeGroup q k).script = s.script := rfl

@[simp] theorem State.takeGroup_reads (s : State) (q : Slot) (k : Nat) :
    (s.takeGroup q k).reads = s.reads := rfl

/-! ### `deassert` -/

@[simp] theorem State.deassert_regs (s : State) (q : Slot) :
    (s.deassert q).regs = s.regs := rfl

@[simp] theorem State.deassert_slots (s : State) (q : Slot) :
    (s.deassert q).slots = s.slots := rfl

@[simp] theorem State.deassert_tl (s : State) (q : Slot) :
    (s.deassert q).tl = s.tl := rfl

@[simp] theorem State.deassert_mono (s : State) (q : Slot) :
    (s.deassert q).mono = s.mono := rfl

@[simp] theorem State.deassert_ctl_upc (s : State) (q : Slot) :
    (s.deassert q).ctl.upc = s.ctl.upc := rfl

@[simp] theorem State.deassert_ctl_steps (s : State) (q : Slot) :
    (s.deassert q).ctl.steps = s.ctl.steps := rfl

@[simp] theorem State.deassert_ctl_spin (s : State) (q : Slot) :
    (s.deassert q).ctl.spin = s.ctl.spin := rfl

@[simp] theorem State.deassert_ctl_i (s : State) (q : Slot) :
    (s.deassert q).ctl.i = s.ctl.i := rfl

@[simp] theorem State.deassert_ctl_k (s : State) (q : Slot) :
    (s.deassert q).ctl.k = s.ctl.k := rfl

@[simp] theorem State.deassert_ctl_b (s : State) (q : Slot) :
    (s.deassert q).ctl.b = s.ctl.b := rfl

@[simp] theorem State.deassert_ctl_g (s : State) (q : Slot) :
    (s.deassert q).ctl.g = s.ctl.g := rfl

@[simp] theorem State.deassert_ctl_acc (s : State) (q : Slot) :
    (s.deassert q).ctl.acc = s.ctl.acc := rfl

@[simp] theorem State.deassert_ctl_v (s : State) (q : Slot) :
    (s.deassert q).ctl.v = s.ctl.v := rfl

@[simp] theorem State.deassert_ctl_masks (s : State) (q : Slot) :
    (s.deassert q).ctl.masks = q.deassertMasks s.ctl.g := rfl

@[simp] theorem State.deassert_ctl_staged (s : State) (q : Slot) :
    (s.deassert q).ctl.staged = s.ctl.staged := rfl

@[simp] theorem State.deassert_buf (s : State) (q : Slot) :
    (s.deassert q).buf = s.buf := rfl

@[simp] theorem State.deassert_bufEpoch (s : State) (q : Slot) :
    (s.deassert q).bufEpoch = s.bufEpoch := rfl

@[simp] theorem State.deassert_port (s : State) (q : Slot) :
    (s.deassert q).port = s.port := rfl

@[simp] theorem State.deassert_params (s : State) (q : Slot) :
    (s.deassert q).params = s.params := rfl

@[simp] theorem State.deassert_env (s : State) (q : Slot) :
    (s.deassert q).env = s.env := rfl

@[simp] theorem State.deassert_script (s : State) (q : Slot) :
    (s.deassert q).script = s.script := rfl

@[simp] theorem State.deassert_reads (s : State) (q : Slot) :
    (s.deassert q).reads = s.reads := rfl

/-! ### `startUnit` -/

@[simp] theorem State.startUnit_regs (s : State) (i : Nat) :
    (s.startUnit i).regs = s.regs := rfl

@[simp] theorem State.startUnit_slots (s : State) (i : Nat) :
    (s.startUnit i).slots = s.slots := rfl

@[simp] theorem State.startUnit_tl (s : State) (i : Nat) :
    (s.startUnit i).tl = s.tl := rfl

@[simp] theorem State.startUnit_mono (s : State) (i : Nat) :
    (s.startUnit i).mono = s.mono := rfl

@[simp] theorem State.startUnit_ctl_upc (s : State) (i : Nat) :
    (s.startUnit i).ctl.upc = s.ctl.upc := rfl

@[simp] theorem State.startUnit_ctl_steps (s : State) (i : Nat) :
    (s.startUnit i).ctl.steps = s.ctl.steps := rfl

@[simp] theorem State.startUnit_ctl_spin (s : State) (i : Nat) :
    (s.startUnit i).ctl.spin = s.ctl.spin := rfl

@[simp] theorem State.startUnit_ctl_i (s : State) (i : Nat) :
    (s.startUnit i).ctl.i = i := rfl

@[simp] theorem State.startUnit_ctl_k (s : State) (i : Nat) :
    (s.startUnit i).ctl.k = s.ctl.k := rfl

@[simp] theorem State.startUnit_ctl_b (s : State) (i : Nat) :
    (s.startUnit i).ctl.b = s.ctl.b := rfl

@[simp] theorem State.startUnit_ctl_g (s : State) (i : Nat) :
    (s.startUnit i).ctl.g = s.ctl.g := rfl

@[simp] theorem State.startUnit_ctl_acc (s : State) (i : Nat) :
    (s.startUnit i).ctl.acc = 0 := rfl

@[simp] theorem State.startUnit_ctl_v (s : State) (i : Nat) :
    (s.startUnit i).ctl.v = s.ctl.v := rfl

@[simp] theorem State.startUnit_ctl_masks (s : State) (i : Nat) :
    (s.startUnit i).ctl.masks = s.ctl.masks := rfl

@[simp] theorem State.startUnit_ctl_staged (s : State) (i : Nat) :
    (s.startUnit i).ctl.staged = s.ctl.staged := rfl

@[simp] theorem State.startUnit_buf (s : State) (i : Nat) :
    (s.startUnit i).buf = s.buf := rfl

@[simp] theorem State.startUnit_bufEpoch (s : State) (i : Nat) :
    (s.startUnit i).bufEpoch = s.bufEpoch := rfl

@[simp] theorem State.startUnit_port (s : State) (i : Nat) :
    (s.startUnit i).port = s.port := rfl

@[simp] theorem State.startUnit_params (s : State) (i : Nat) :
    (s.startUnit i).params = s.params := rfl

@[simp] theorem State.startUnit_env (s : State) (i : Nat) :
    (s.startUnit i).env = s.env := rfl

@[simp] theorem State.startUnit_script (s : State) (i : Nat) :
    (s.startUnit i).script = s.script := rfl

@[simp] theorem State.startUnit_reads (s : State) (i : Nat) :
    (s.startUnit i).reads = s.reads := rfl

/-! ### `readGroup` -/

@[simp] theorem State.readGroup_regs (s : State) (k : Nat) :
    (s.readGroup k).regs = s.regs := rfl

@[simp] theorem State.readGroup_slots (s : State) (k : Nat) :
    (s.readGroup k).slots = s.slots := rfl

@[simp] theorem State.readGroup_tl (s : State) (k : Nat) :
    (s.readGroup k).tl = s.tl := rfl

@[simp] theorem State.readGroup_mono (s : State) (k : Nat) :
    (s.readGroup k).mono = s.mono := rfl

@[simp] theorem State.readGroup_ctl_upc (s : State) (k : Nat) :
    (s.readGroup k).ctl.upc = s.ctl.upc := rfl

@[simp] theorem State.readGroup_ctl_steps (s : State) (k : Nat) :
    (s.readGroup k).ctl.steps = s.ctl.steps := rfl

@[simp] theorem State.readGroup_ctl_spin (s : State) (k : Nat) :
    (s.readGroup k).ctl.spin = s.ctl.spin := rfl

@[simp] theorem State.readGroup_ctl_i (s : State) (k : Nat) :
    (s.readGroup k).ctl.i = s.ctl.i := rfl

@[simp] theorem State.readGroup_ctl_k (s : State) (k : Nat) :
    (s.readGroup k).ctl.k = k := rfl

@[simp] theorem State.readGroup_ctl_b (s : State) (k : Nat) :
    (s.readGroup k).ctl.b = s.ctl.b := rfl

@[simp] theorem State.readGroup_ctl_g (s : State) (k : Nat) :
    (s.readGroup k).ctl.g = s.ctl.g := rfl

@[simp] theorem State.readGroup_ctl_acc (s : State) (k : Nat) :
    (s.readGroup k).ctl.acc = s.ctl.acc := rfl

@[simp] theorem State.readGroup_ctl_v (s : State) (k : Nat) :
    (s.readGroup k).ctl.v = s.ctl.v := rfl

@[simp] theorem State.readGroup_ctl_masks (s : State) (k : Nat) :
    (s.readGroup k).ctl.masks = s.ctl.masks := rfl

@[simp] theorem State.readGroup_ctl_staged (s : State) (k : Nat) :
    (s.readGroup k).ctl.staged = s.ctl.staged := rfl

@[simp] theorem State.readGroup_buf (s : State) (k : Nat) :
    (s.readGroup k).buf = s.buf := rfl

@[simp] theorem State.readGroup_bufEpoch (s : State) (k : Nat) :
    (s.readGroup k).bufEpoch = s.bufEpoch := rfl

@[simp] theorem State.readGroup_port (s : State) (k : Nat) :
    (s.readGroup k).port = s.port := rfl

@[simp] theorem State.readGroup_params (s : State) (k : Nat) :
    (s.readGroup k).params = s.params := rfl

@[simp] theorem State.readGroup_env (s : State) (k : Nat) :
    (s.readGroup k).env = s.env := rfl

@[simp] theorem State.readGroup_script (s : State) (k : Nat) :
    (s.readGroup k).script = s.script := rfl

@[simp] theorem State.readGroup_reads (s : State) (k : Nat) :
    (s.readGroup k).reads = s.reads := rfl

/-! ### `accumulate` -/

@[simp] theorem State.accumulate_regs (s : State) (q : Slot) :
    (s.accumulate q).regs = s.regs := rfl

@[simp] theorem State.accumulate_slots (s : State) (q : Slot) :
    (s.accumulate q).slots = s.slots := rfl

@[simp] theorem State.accumulate_tl (s : State) (q : Slot) :
    (s.accumulate q).tl = s.tl := rfl

@[simp] theorem State.accumulate_mono (s : State) (q : Slot) :
    (s.accumulate q).mono = s.mono := rfl

@[simp] theorem State.accumulate_ctl_upc (s : State) (q : Slot) :
    (s.accumulate q).ctl.upc = s.ctl.upc := rfl

@[simp] theorem State.accumulate_ctl_steps (s : State) (q : Slot) :
    (s.accumulate q).ctl.steps = s.ctl.steps := rfl

@[simp] theorem State.accumulate_ctl_spin (s : State) (q : Slot) :
    (s.accumulate q).ctl.spin = s.ctl.spin := rfl

@[simp] theorem State.accumulate_ctl_i (s : State) (q : Slot) :
    (s.accumulate q).ctl.i = s.ctl.i := rfl

@[simp] theorem State.accumulate_ctl_k (s : State) (q : Slot) :
    (s.accumulate q).ctl.k = s.ctl.k := rfl

@[simp] theorem State.accumulate_ctl_b (s : State) (q : Slot) :
    (s.accumulate q).ctl.b = s.ctl.b := rfl

@[simp] theorem State.accumulate_ctl_g (s : State) (q : Slot) :
    (s.accumulate q).ctl.g = s.ctl.g := rfl

@[simp] theorem State.accumulate_ctl_acc (s : State) (q : Slot) :
    (s.accumulate q).ctl.acc = q.accumulate s.ctl.acc (q.extract s.ctl.v (s.env.undef.value Sys2Proof.Config.undefBits)) := rfl

@[simp] theorem State.accumulate_ctl_v (s : State) (q : Slot) :
    (s.accumulate q).ctl.v = s.ctl.v := rfl

@[simp] theorem State.accumulate_ctl_masks (s : State) (q : Slot) :
    (s.accumulate q).ctl.masks = s.ctl.masks := rfl

@[simp] theorem State.accumulate_ctl_staged (s : State) (q : Slot) :
    (s.accumulate q).ctl.staged = s.ctl.staged := rfl

@[simp] theorem State.accumulate_buf (s : State) (q : Slot) :
    (s.accumulate q).buf = s.buf := rfl

@[simp] theorem State.accumulate_bufEpoch (s : State) (q : Slot) :
    (s.accumulate q).bufEpoch = s.bufEpoch := rfl

@[simp] theorem State.accumulate_port (s : State) (q : Slot) :
    (s.accumulate q).port = s.port := rfl

@[simp] theorem State.accumulate_params (s : State) (q : Slot) :
    (s.accumulate q).params = s.params := rfl

@[simp] theorem State.accumulate_env_elapsed (s : State) (q : Slot) :
    (s.accumulate q).env.elapsed = s.env.elapsed := rfl

@[simp] theorem State.accumulate_env_spins (s : State) (q : Slot) :
    (s.accumulate q).env.spins = s.env.spins := rfl

@[simp] theorem State.accumulate_env_bank (s : State) (q : Slot) :
    (s.accumulate q).env.bank = s.env.bank := rfl

@[simp] theorem State.accumulate_env_undef (s : State) (q : Slot) :
    (s.accumulate q).env.undef = s.env.undef.rest := rfl

@[simp] theorem State.accumulate_env_avail (s : State) (q : Slot) :
    (s.accumulate q).env.avail = s.env.avail := rfl

@[simp] theorem State.accumulate_script (s : State) (q : Slot) :
    (s.accumulate q).script = s.script := rfl

@[simp] theorem State.accumulate_reads (s : State) (q : Slot) :
    (s.accumulate q).reads = s.reads := rfl

/-! ### `loadRdval` -/

@[simp] theorem State.loadRdval_regs_cmd (s : State) :
    (s.loadRdval).regs.cmd = s.regs.cmd := rfl

@[simp] theorem State.loadRdval_regs_busy (s : State) :
    (s.loadRdval).regs.busy = s.regs.busy := rfl

@[simp] theorem State.loadRdval_regs_lost (s : State) :
    (s.loadRdval).regs.lost = s.regs.lost := rfl

@[simp] theorem State.loadRdval_regs_result (s : State) :
    (s.loadRdval).regs.result = s.regs.result := rfl

@[simp] theorem State.loadRdval_regs_rdval (s : State) :
    (s.loadRdval).regs.rdval = s.ctl.acc := rfl

@[simp] theorem State.loadRdval_regs_ptr (s : State) :
    (s.loadRdval).regs.ptr = s.regs.ptr := rfl

@[simp] theorem State.loadRdval_regs_staging (s : State) :
    (s.loadRdval).regs.staging = s.regs.staging := rfl

@[simp] theorem State.loadRdval_slots (s : State) :
    (s.loadRdval).slots = s.slots := rfl

@[simp] theorem State.loadRdval_tl (s : State) :
    (s.loadRdval).tl = s.tl := rfl

@[simp] theorem State.loadRdval_mono (s : State) :
    (s.loadRdval).mono = s.mono := rfl

@[simp] theorem State.loadRdval_ctl (s : State) :
    (s.loadRdval).ctl = s.ctl := rfl

@[simp] theorem State.loadRdval_buf (s : State) :
    (s.loadRdval).buf = s.buf := rfl

@[simp] theorem State.loadRdval_bufEpoch (s : State) :
    (s.loadRdval).bufEpoch = s.bufEpoch := rfl

@[simp] theorem State.loadRdval_port (s : State) :
    (s.loadRdval).port = s.port := rfl

@[simp] theorem State.loadRdval_params (s : State) :
    (s.loadRdval).params = s.params := rfl

@[simp] theorem State.loadRdval_env (s : State) :
    (s.loadRdval).env = s.env := rfl

@[simp] theorem State.loadRdval_script (s : State) :
    (s.loadRdval).script = s.script := rfl

@[simp] theorem State.loadRdval_reads (s : State) :
    (s.loadRdval).reads = s.reads := rfl

/-! ### `resetNow` -/

@[simp] theorem State.resetNow_regs (s : State) :
    (s.resetNow).regs = HostRegs.reset := rfl

@[simp] theorem State.resetNow_slots (s : State) :
    (s.resetNow).slots = List.replicate s.params.numProfiles Slot.empty := rfl

@[simp] theorem State.resetNow_tl (s : State) :
    (s.resetNow).tl = ⟨0, 0⟩ := rfl

@[simp] theorem State.resetNow_mono (s : State) :
    (s.resetNow).mono = 0 := rfl

@[simp] theorem State.resetNow_ctl (s : State) :
    (s.resetNow).ctl = Control.idle := rfl

@[simp] theorem State.resetNow_buf (s : State) :
    (s.resetNow).buf = [] := rfl

@[simp] theorem State.resetNow_bufEpoch (s : State) :
    (s.resetNow).bufEpoch = s.bufEpoch + 1 := rfl

@[simp] theorem State.resetNow_port (s : State) :
    (s.resetNow).port = s.port := rfl

@[simp] theorem State.resetNow_params (s : State) :
    (s.resetNow).params = s.params := rfl

@[simp] theorem State.resetNow_env (s : State) :
    (s.resetNow).env = s.env := rfl

@[simp] theorem State.resetNow_script (s : State) :
    (s.resetNow).script = s.script := rfl

@[simp] theorem State.resetNow_reads (s : State) :
    (s.resetNow).reads = s.reads := rfl

/-! ### `bumpPtr` -/

@[simp] theorem State.bumpPtr_regs_cmd (s : State) :
    (s.bumpPtr).regs.cmd = s.regs.cmd := rfl

@[simp] theorem State.bumpPtr_regs_busy (s : State) :
    (s.bumpPtr).regs.busy = s.regs.busy := rfl

@[simp] theorem State.bumpPtr_regs_lost (s : State) :
    (s.bumpPtr).regs.lost = s.regs.lost := rfl

@[simp] theorem State.bumpPtr_regs_result (s : State) :
    (s.bumpPtr).regs.result = s.regs.result := rfl

@[simp] theorem State.bumpPtr_regs_rdval (s : State) :
    (s.bumpPtr).regs.rdval = s.regs.rdval := rfl

@[simp] theorem State.bumpPtr_regs_ptr (s : State) :
    (s.bumpPtr).regs.ptr = BitVec.ofNat 16 ((s.regs.ptr.toNat + 1) % s.params.bufSize) := rfl

@[simp] theorem State.bumpPtr_regs_staging (s : State) :
    (s.bumpPtr).regs.staging = s.regs.staging := rfl

@[simp] theorem State.bumpPtr_slots (s : State) :
    (s.bumpPtr).slots = s.slots := rfl

@[simp] theorem State.bumpPtr_tl (s : State) :
    (s.bumpPtr).tl = s.tl := rfl

@[simp] theorem State.bumpPtr_mono (s : State) :
    (s.bumpPtr).mono = s.mono := rfl

@[simp] theorem State.bumpPtr_ctl (s : State) :
    (s.bumpPtr).ctl = s.ctl := rfl

@[simp] theorem State.bumpPtr_buf (s : State) :
    (s.bumpPtr).buf = s.buf := rfl

@[simp] theorem State.bumpPtr_bufEpoch (s : State) :
    (s.bumpPtr).bufEpoch = s.bufEpoch := rfl

@[simp] theorem State.bumpPtr_port (s : State) :
    (s.bumpPtr).port = s.port := rfl

@[simp] theorem State.bumpPtr_params (s : State) :
    (s.bumpPtr).params = s.params := rfl

@[simp] theorem State.bumpPtr_env (s : State) :
    (s.bumpPtr).env = s.env := rfl

@[simp] theorem State.bumpPtr_script (s : State) :
    (s.bumpPtr).script = s.script := rfl

@[simp] theorem State.bumpPtr_reads (s : State) :
    (s.bumpPtr).reads = s.reads := rfl

/-! ### `writePtr` -/

@[simp] theorem State.writePtr_regs_cmd (s : State) (v : Word) :
    (s.writePtr v).regs.cmd = s.regs.cmd := rfl

@[simp] theorem State.writePtr_regs_busy (s : State) (v : Word) :
    (s.writePtr v).regs.busy = s.regs.busy := rfl

@[simp] theorem State.writePtr_regs_lost (s : State) (v : Word) :
    (s.writePtr v).regs.lost = s.regs.lost := rfl

@[simp] theorem State.writePtr_regs_result (s : State) (v : Word) :
    (s.writePtr v).regs.result = s.regs.result := rfl

@[simp] theorem State.writePtr_regs_rdval (s : State) (v : Word) :
    (s.writePtr v).regs.rdval = s.regs.rdval := rfl

@[simp] theorem State.writePtr_regs_ptr (s : State) (v : Word) :
    (s.writePtr v).regs.ptr = BitVec.ofNat 16 ((v.extractLsb' 0 16).toNat % s.params.bufSize) := rfl

@[simp] theorem State.writePtr_regs_staging (s : State) (v : Word) :
    (s.writePtr v).regs.staging = s.regs.staging := rfl

@[simp] theorem State.writePtr_slots (s : State) (v : Word) :
    (s.writePtr v).slots = s.slots := rfl

@[simp] theorem State.writePtr_tl (s : State) (v : Word) :
    (s.writePtr v).tl = s.tl := rfl

@[simp] theorem State.writePtr_mono (s : State) (v : Word) :
    (s.writePtr v).mono = s.mono := rfl

@[simp] theorem State.writePtr_ctl (s : State) (v : Word) :
    (s.writePtr v).ctl = s.ctl := rfl

@[simp] theorem State.writePtr_buf (s : State) (v : Word) :
    (s.writePtr v).buf = s.buf := rfl

@[simp] theorem State.writePtr_bufEpoch (s : State) (v : Word) :
    (s.writePtr v).bufEpoch = s.bufEpoch := rfl

@[simp] theorem State.writePtr_port (s : State) (v : Word) :
    (s.writePtr v).port = s.port := rfl

@[simp] theorem State.writePtr_params (s : State) (v : Word) :
    (s.writePtr v).params = s.params := rfl

@[simp] theorem State.writePtr_env (s : State) (v : Word) :
    (s.writePtr v).env = s.env := rfl

@[simp] theorem State.writePtr_script (s : State) (v : Word) :
    (s.writePtr v).script = s.script := rfl

@[simp] theorem State.writePtr_reads (s : State) (v : Word) :
    (s.writePtr v).reads = s.reads := rfl

/-! ### `stage` -/

@[simp] theorem State.stage_regs_cmd (s : State) (r : Staging) :
    (s.stage r).regs.cmd = s.regs.cmd := rfl

@[simp] theorem State.stage_regs_busy (s : State) (r : Staging) :
    (s.stage r).regs.busy = s.regs.busy := rfl

@[simp] theorem State.stage_regs_lost (s : State) (r : Staging) :
    (s.stage r).regs.lost = s.regs.lost := rfl

@[simp] theorem State.stage_regs_result (s : State) (r : Staging) :
    (s.stage r).regs.result = s.regs.result := rfl

@[simp] theorem State.stage_regs_rdval (s : State) (r : Staging) :
    (s.stage r).regs.rdval = s.regs.rdval := rfl

@[simp] theorem State.stage_regs_ptr (s : State) (r : Staging) :
    (s.stage r).regs.ptr = s.regs.ptr := rfl

@[simp] theorem State.stage_regs_staging (s : State) (r : Staging) :
    (s.stage r).regs.staging = r := rfl

@[simp] theorem State.stage_slots (s : State) (r : Staging) :
    (s.stage r).slots = s.slots := rfl

@[simp] theorem State.stage_tl (s : State) (r : Staging) :
    (s.stage r).tl = s.tl := rfl

@[simp] theorem State.stage_mono (s : State) (r : Staging) :
    (s.stage r).mono = s.mono := rfl

@[simp] theorem State.stage_ctl (s : State) (r : Staging) :
    (s.stage r).ctl = s.ctl := rfl

@[simp] theorem State.stage_buf (s : State) (r : Staging) :
    (s.stage r).buf = s.buf := rfl

@[simp] theorem State.stage_bufEpoch (s : State) (r : Staging) :
    (s.stage r).bufEpoch = s.bufEpoch := rfl

@[simp] theorem State.stage_port (s : State) (r : Staging) :
    (s.stage r).port = s.port := rfl

@[simp] theorem State.stage_params (s : State) (r : Staging) :
    (s.stage r).params = s.params := rfl

@[simp] theorem State.stage_env (s : State) (r : Staging) :
    (s.stage r).env = s.env := rfl

@[simp] theorem State.stage_script (s : State) (r : Staging) :
    (s.stage r).script = s.script := rfl

@[simp] theorem State.stage_reads (s : State) (r : Staging) :
    (s.stage r).reads = s.reads := rfl

/-! ### `popMove` -/

@[simp] theorem State.popMove_regs (s : State) :
    (s.popMove).regs = s.regs := rfl

@[simp] theorem State.popMove_slots (s : State) :
    (s.popMove).slots = s.slots := rfl

@[simp] theorem State.popMove_tl (s : State) :
    (s.popMove).tl = s.tl := rfl

@[simp] theorem State.popMove_mono (s : State) :
    (s.popMove).mono = s.mono := rfl

@[simp] theorem State.popMove_ctl (s : State) :
    (s.popMove).ctl = s.ctl := rfl

@[simp] theorem State.popMove_buf (s : State) :
    (s.popMove).buf = s.buf := rfl

@[simp] theorem State.popMove_bufEpoch (s : State) :
    (s.popMove).bufEpoch = s.bufEpoch := rfl

@[simp] theorem State.popMove_port (s : State) :
    (s.popMove).port = s.port := rfl

@[simp] theorem State.popMove_params (s : State) :
    (s.popMove).params = s.params := rfl

@[simp] theorem State.popMove_env (s : State) :
    (s.popMove).env = s.env := rfl

@[simp] theorem State.popMove_script (s : State) :
    (s.popMove).script = s.script.tail := rfl

@[simp] theorem State.popMove_reads (s : State) :
    (s.popMove).reads = s.reads := rfl

@[simp] theorem State.portMode_output_dir (s : State) (m : Word) :
    (s.portMode m .output).port.dir = s.port.dir ||| m := rfl

@[simp] theorem State.portMode_input_dir (s : State) (m : Word) :
    (s.portMode m .input).port.dir = s.port.dir &&& ~~~m := rfl

end Sys2Proof.Machine
end

