-- ==== Sys2Proof/Laws/Memory.lean ====
section
/-! SUPPORT. BUF: a read after a write, and that every operation keeps the canonical form. -/

namespace Sys2Proof.Machine

theorem Memory.read_write_same (m : List Host.Cell) (a : Nat) (v : Byte) :
    Memory.read (Memory.write m a v) a = some v := by
  induction m with
  | nil => simp [Memory.write, Memory.read]
  | cons c r ih =>
    obtain ⟨b, w⟩ := c
    unfold Memory.write
    split
    · simp [Memory.read]
    · split
      · simp [Memory.read]
      · next h1 h2 => simp [Memory.read, h2, ih]

theorem Memory.read_write_other (m : List Host.Cell) (a b : Nat) (v : Byte) (h : b ≠ a) :
    Memory.read (Memory.write m a v) b = Memory.read m b := by
  induction m with
  | nil => simp [Memory.write, Memory.read, h]
  | cons c r ih =>
    obtain ⟨x, w⟩ := c
    unfold Memory.write
    split
    · simp [Memory.read, h]
    · split
      · next h1 h2 => subst h2; simp [Memory.read, h]
      · simp [Memory.read, ih]

/-- The lowest listed index of a write's result. -/
theorem Memory.rising_cons_write (m : List Host.Cell) (x a : Nat) (w v : Byte) (hx : x < a)
    (h : Memory.rising ((x, w) :: m) = true) : Memory.rising ((x, w) :: Memory.write m a v) = true := by
  induction m generalizing x w with
  | nil => simp [Memory.write, Memory.rising, hx]
  | cons c r ih =>
    obtain ⟨b, u⟩ := c
    simp only [Memory.rising, Bool.and_eq_true, decide_eq_true_eq] at h
    unfold Memory.write
    split
    · next hab => simp [Memory.rising, hx, hab, h.2]
    · split
      · next h1 h2 => subst h2; cases r <;> simp_all [Memory.rising]
      · next h1 h2 =>
        have := ih b u (by omega) h.2
        simp only [Memory.rising, Bool.and_eq_true, decide_eq_true_eq]
        exact ⟨h.1, this⟩

theorem Memory.rising_write (m : List Host.Cell) (a : Nat) (v : Byte)
    (h : Memory.rising m = true) : Memory.rising (Memory.write m a v) = true := by
  cases m with
  | nil => simp [Memory.write, Memory.rising]
  | cons c r =>
    obtain ⟨b, w⟩ := c
    unfold Memory.write
    split
    · next hab => simp [Memory.rising, hab, h]
    · split
      · next h1 h2 => subst h2; cases r <;> simp_all [Memory.rising]
      · exact Memory.rising_cons_write r b a w v (by omega) h

/-- Every entry is listed: no entry equals what an unlisted index reads as. -/
theorem Memory.wf_eq_rising (m : List Host.Cell) : Memory.wf m = Memory.rising m := by
  simp [Memory.wf, Memory.unlisted]

/-- A write keeps the canonical form. -/
theorem Memory.wf_write (m : List Host.Cell) (a : Nat) (v : Byte) (h : Memory.wf m = true) :
    Memory.wf (Memory.write m a v) = true := by
  rw [Memory.wf_eq_rising] at h ⊢
  exact Memory.rising_write m a v h

/-- A write lists no index but its own. -/
theorem Memory.mem_write (m : List Host.Cell) (a : Nat) (v : Byte) (c : Host.Cell)
    (h : c ∈ Memory.write m a v) : c = (a, v) ∨ c ∈ m := by
  induction m with
  | nil => simpa [Memory.write] using h
  | cons d r ih =>
    obtain ⟨b, w⟩ := d
    unfold Memory.write at h
    split at h
    · simpa using h
    · split at h
      · simp only [List.mem_cons] at h ⊢; tauto
      · simp only [List.mem_cons] at h ⊢; rcases h with h | h
        · tauto
        · rcases ih h with h | h <;> tauto

/-- `BUF[i]` after `MemWrite(i, 1, v)` (R12). -/
@[simp] theorem State.bufRead_bufWrite_same (s : State) (i : Nat) (v : Byte) :
    (s.bufWrite i v).bufRead i = v := by
  simp [State.bufRead, State.bufWrite, Memory.read_write_same]

/-- A write leaves every other byte alone (R12). -/
theorem State.bufRead_bufWrite_other (s : State) (i j : Nat) (v : Byte) (h : j ≠ i) :
    (s.bufWrite i v).bufRead j = s.bufRead j := by
  simp [State.bufRead, State.bufWrite, Memory.read_write_other _ _ _ _ h]

/-- BUF depends on the bytes written and on the resets seen alone. -/
theorem State.bufRead_congr (s t : State) (hb : t.buf = s.buf) (he : t.bufEpoch = s.bufEpoch)
    (i : Nat) : t.bufRead i = s.bufRead i := by
  simp [State.bufRead, hb, he]

/-- The memory right after reset has the canonical form. -/
theorem State.reset_buf_wf : Memory.wf State.reset.buf = true := rfl

end Sys2Proof.Machine
end

