-- ==== Sys2Proof/Laws/PerInstr.lean ====
section
/-! SUPPORT. What holds of every instruction as syntax, one lemma per constructor. -/

namespace Sys2Proof.Laws.OpField

/-- The OP value of 30_encoding.md R102's table. -/
def opcode : Instr → Nat
  | .nop => 0
  | .create _ => 1
  | .release _ => 2
  | .wrdata _ _ => 3
  | .wrcmd _ _ => 4
  | .rddata _ _ => 5
  | .rdreg _ => 6

/-- The encoded word carries the instruction's OP, whatever its operands (R100, R102). -/
def Statement (i : Instr) : Prop := (wordOp (encode i)).toNat = opcode i

/-- No operand reaches the OP field. -/
theorem wordOp_formatC (count : Nat) (imm : Byte) (prof : Nat) (op : BitVec 4) :
    wordOp (formatC count imm prof op) = op := by
  unfold wordOp formatC
  ext i hi
  have h4 : i < 4 := hi
  simp only [BitVec.getElem_extractLsb', BitVec.getLsbD_or, BitVec.getLsbD_shiftLeft,
    BitVec.getLsbD_setWidth]
  have h8 : i < 8 := by omega
  have h16 : i < 16 := by omega
  have h32 : i < 32 := by omega
  simp [h4, h8, h16, h32]

theorem nop : Statement .nop := by simp [Statement, encode, wordOp_formatC, opcode]
theorem create (p : Nat) : Statement (.create p) := by simp [Statement, encode, wordOp_formatC, opcode]
theorem release (p : Nat) : Statement (.release p) := by simp [Statement, encode, wordOp_formatC, opcode]
theorem wrdata (p n : Nat) : Statement (.wrdata p n) := by simp [Statement, encode, wordOp_formatC, opcode]
theorem wrcmd (p : Nat) (imm : Byte) : Statement (.wrcmd p imm) := by
  simp [Statement, encode, wordOp_formatC, opcode]
theorem rddata (p n : Nat) : Statement (.rddata p n) := by simp [Statement, encode, wordOp_formatC, opcode]
theorem rdreg (p : Nat) : Statement (.rdreg p) := by simp [Statement, encode, wordOp_formatC, opcode]

end Sys2Proof.Laws.OpField
end

