-- ==== Sys2Proof/Laws/Time.lean ====
section
/-! SUPPORT. What the timebase and WAIT can do, said once (41_timeline.md R166-R177): a `Clock()` read, the
first step of a WAIT, a further read of its spin, and the whole WAIT. -/

namespace Sys2Proof.Machine

/-! ## Outcomes in sequence -/

@[simp] theorem thenRun_next (s : State) (f : State → StepOutcome) : thenRun (.next s) f = f s := rfl
@[simp] theorem thenRun_fault (x : Fault) (f : State → StepOutcome) : thenRun (.fault x) f = .fault x := rfl
@[simp] theorem thenRun_refused (x : Refusal) (f : State → StepOutcome) :
    thenRun (.refused x) f = .refused x := rfl

theorem thenRun_assoc (o : StepOutcome) (f g : State → StepOutcome) :
    thenRun (thenRun o f) g = thenRun o fun s => thenRun (f s) g := by
  cases o <;> rfl

theorem thenRun_eq_next (o : StepOutcome) (f : State → StepOutcome) (t : State)
    (h : thenRun o f = .next t) : ∃ s, o = .next s ∧ f s = .next t := by
  cases o with
  | next s => exact ⟨s, rfl, h⟩
  | fault x => cases h
  | refused x => cases h

/-! ## What a WAIT leaves alone -/

/-- Everything but MONO_NS, the supplies of time, `tl.sched` and the position is as before: what a step of a
WAIT may change. -/
structure State.SameButTime (s t : State) : Prop where
  regs : t.regs = s.regs
  slots : t.slots = s.slots
  timing : t.tl.timing = s.tl.timing
  ctl : t.ctl = { s.ctl with upc := t.ctl.upc, steps := t.ctl.steps, spin := t.ctl.spin }
  buf : t.buf = s.buf
  bufEpoch : t.bufEpoch = s.bufEpoch
  port : t.port = s.port
  params : t.params = s.params
  bank : t.env.bank = s.env.bank
  undef : t.env.undef = s.env.undef
  avail : t.env.avail = s.env.avail
  script : t.script = s.script
  reads : t.reads = s.reads

theorem State.SameButTime.rfl' (s : State) : s.SameButTime s :=
  ⟨rfl, rfl, rfl, rfl, rfl, rfl, rfl, rfl, rfl, rfl, rfl, rfl, rfl⟩

theorem State.SameButTime.trans {s t u : State} (h : s.SameButTime t) (k : t.SameButTime u) :
    s.SameButTime u :=
  ⟨k.regs.trans h.regs, k.slots.trans h.slots, k.timing.trans h.timing, by rw [k.ctl, h.ctl],
    k.buf.trans h.buf, k.bufEpoch.trans h.bufEpoch, k.port.trans h.port, k.params.trans h.params,
    k.bank.trans h.bank, k.undef.trans h.undef, k.avail.trans h.avail, k.script.trans h.script,
    k.reads.trans h.reads⟩

/-! ## The timebase -/

theorem toNat_ofNat_time (n : Nat) (h : n < timeLimit) : (BitVec.ofNat 64 n).toNat = n := by
  rw [BitVec.toNat_ofNat]
  exact Nat.mod_eq_of_lt h

theorem State.setMono_eq_some (s t : State) (ns : Nat) (h : s.setMono ns = some t) :
    ns < timeLimit ∧ t = { s with mono := BitVec.ofNat 64 ns } := by
  unfold State.setMono at h
  split at h
  · exact ⟨‹_›, (Option.some.inj h).symm⟩
  · cases h

theorem State.clockFrom_eq (s : State) (least : Nat) :
    s.clockFrom least =
      if max (s.mono.toNat + s.nextElapsed) least < timeLimit then
        some { s.dropElapsed with
          mono := BitVec.ofNat 64 (max (s.mono.toNat + s.nextElapsed) least) }
      else none := rfl

/-- What `Clock()` can do: time passes, and nothing else changes. -/
theorem State.clockFrom_eq_some (s t : State) (least : Nat) (h : s.clockFrom least = some t) :
    t.mono.toNat = max (s.mono.toNat + s.nextElapsed) least ∧ t = { s.dropElapsed with mono := t.mono } := by
  obtain ⟨hlt, rfl⟩ := State.setMono_eq_some _ _ _ h
  exact ⟨toNat_ofNat_time _ hlt, rfl⟩

theorem State.clockRead_eq_some (s t : State) (h : s.clockRead = some t) :
    t.mono.toNat = s.mono.toNat + s.nextElapsed ∧ t = { s.dropElapsed with mono := t.mono } := by
  simpa using State.clockFrom_eq_some s t 0 h

/-! ## The steps of a WAIT -/

/-- The state after the first step of a WAIT whose first read is `now`. -/
def State.started (s : State) (now : Nat) : State :=
  { s with
    mono := BitVec.ofNat 64 now
    tl := { s.tl with
      sched := if now < s.waitDeadline now then
          (if s.tl.sched.toNat + s.tl.timing.toNat < now then BitVec.ofNat 64 now else s.tl.sched)
        else BitVec.ofNat 64 (s.waitDeadline now) }
    ctl := { s.ctl with
      spin := if now < s.waitDeadline now then
          (some ⟨BitVec.ofNat 64 (s.waitDeadline now), s.env.spins.value Sys2Proof.Config.spins⟩)
        else none }
    env := { s.env with
      elapsed := s.env.elapsed.rest
      spins := if now < s.waitDeadline now then s.env.spins.rest else s.env.spins } }

/-- Everything the first step of a WAIT can do (R171, R172, R177). -/
theorem State.waitStart_eq (s : State) (now : Nat) (hn : now = s.mono.toNat + s.nextElapsed) :
    s.waitStart =
      if s.tl.sched.toNat + s.tl.timing.toNat < timeLimit ∧ now < timeLimit ∧
          s.waitDeadline now < timeLimit then .next (s.started now)
      else .refused .timeRange := by
  subst hn
  unfold State.waitStart
  by_cases h1 : s.tl.sched.toNat + s.tl.timing.toNat < timeLimit
  · by_cases h2 : s.mono.toNat + s.nextElapsed < timeLimit
    · have hr : (s.setSpin none).clockRead =
          some { (s.setSpin none).dropElapsed with
            mono := BitVec.ofNat 64 (s.mono.toNat + s.nextElapsed) } := by
        show State.setMono _ (max _ 0) = _
        rw [Nat.max_zero]
        exact if_pos h2
      have hm := toNat_ofNat_time _ h2
      simp only [h1, h2, if_true, hr, hm, true_and]
      by_cases ho : s.tl.sched.toNat + s.tl.timing.toNat < s.mono.toNat + s.nextElapsed
      · simp only [ho, if_true, State.overrun, State.waitDeadline, State.started]
        cases hmode : s.params.resyncMode with
        | immediate => simp [h2, hm, hmode, State.setSched, State.setSpin, State.dropElapsed]
        | rewait =>
          simp only [State.setSpin_params, State.dropElapsed_params, hmode, State.setSpin_tl,
            State.dropElapsed_tl, hm]
          by_cases h3 : s.mono.toNat + s.nextElapsed + s.tl.timing.toNat < timeLimit
          · simp only [h3, if_true, State.beginSpin, State.setSched_mono, hm]
            by_cases h4 : s.tl.timing.toNat = 0
            · simp [h4, State.setSched, State.setSpin, State.dropElapsed]
            · have h6 : 0 < s.tl.timing.toNat := by omega
              simp [h6, h4, State.setSched, State.setSpin, State.dropElapsed, State.dropSpins]
          · simp only [h3, if_false]
      · simp only [ho, if_false, State.waitDeadline, State.started, State.beginSpin, hm, h1, if_true]
        by_cases h4 : s.tl.sched.toNat + s.tl.timing.toNat ≤ s.mono.toNat + s.nextElapsed
        · have h5 : ¬ s.mono.toNat + s.nextElapsed < s.tl.sched.toNat + s.tl.timing.toNat := by omega
          simp only [h4, h5, if_true, if_false]
          rfl
        · have h5 : s.mono.toNat + s.nextElapsed < s.tl.sched.toNat + s.tl.timing.toNat := by omega
          simp only [h4, h5, if_true, if_false]
          rfl
    · have hr : (s.setSpin none).clockRead = none := by
        show State.setMono _ (max _ 0) = _
        rw [Nat.max_zero]
        exact if_neg h2
      simp only [h1, h2, if_true, hr, false_and, and_false, if_false]
  · simp only [h1, if_false, false_and]

/-- A further step of a WAIT that spins to the deadline `d`: one read, not below `d` where fairness ends the
spin; the last one commits `tl.sched` (R171, R176). -/
theorem State.spinRead_cases (s t : State) (x : Spin) (hx : s.ctl.spin = some x)
    (h : s.spinRead = .next t) :
    t.mono.toNat =
      max (s.mono.toNat + s.nextElapsed) (if x.left = 0 then x.deadline.toNat else 0) ∧
    t.env.elapsed = s.env.elapsed.rest ∧ t.env.spins = s.env.spins ∧
    t.ctl.upc = s.ctl.upc ∧ t.ctl.steps = s.ctl.steps ∧
    ((x.deadline.toNat ≤ t.mono.toNat ∧ t.tl.sched = x.deadline ∧ t.ctl.spin = none) ∨
     (t.mono.toNat < x.deadline.toNat ∧ t.tl.sched = s.tl.sched ∧ x.left ≠ 0 ∧
        t.ctl.spin = some ⟨x.deadline, x.left - 1⟩)) := by
  unfold State.spinRead at h
  rw [hx] at h
  simp only at h
  split at h
  · cases h
  · next u hu =>
    obtain ⟨hm, he⟩ := State.clockFrom_eq_some _ _ _ hu
    split at h
    · next hd =>
      cases h
      refine ⟨hm, ?_, ?_, ?_, ?_, .inl ⟨hd, ?_, rfl⟩⟩
      · rw [he]; rfl
      · rw [he]; rfl
      · rw [he]; rfl
      · rw [he]; rfl
      · simp [State.setSched, State.setSpin]
    · next hd =>
      cases h
      refine ⟨hm, ?_, ?_, ?_, ?_, .inr ⟨by simpa using hd, ?_, ?_, rfl⟩⟩
      · rw [he]; rfl
      · rw [he]; rfl
      · rw [he]; rfl
      · rw [he]; rfl
      · rw [he]; rfl
      · intro h0
        simp only [h0, if_true] at hm
        omega

theorem State.setSched_same (s : State) (d : Nat) : s.SameButTime (s.setSched d) :=
  ⟨rfl, rfl, rfl, rfl, rfl, rfl, rfl, rfl, rfl, rfl, rfl, rfl, rfl⟩

theorem State.setSpin_same (s : State) (x : Option Spin) : s.SameButTime (s.setSpin x) :=
  ⟨rfl, rfl, rfl, rfl, rfl, rfl, rfl, rfl, rfl, rfl, rfl, rfl, rfl⟩

theorem State.clockFrom_same (s t : State) (m : Nat) (h : s.clockFrom m = some t) : s.SameButTime t := by
  obtain ⟨_, rfl⟩ := State.setMono_eq_some _ _ _ h
  exact ⟨rfl, rfl, rfl, rfl, rfl, rfl, rfl, rfl, rfl, rfl, rfl, rfl, rfl⟩

theorem State.bumpUpc_same (s : State) : s.SameButTime s.bumpUpc := by
  unfold State.bumpUpc
  split <;> exact ⟨rfl, rfl, rfl, rfl, rfl, rfl, rfl, rfl, rfl, rfl, rfl, rfl, rfl⟩

theorem State.started_same (s : State) (now : Nat) : s.SameButTime (s.started now) :=
  ⟨rfl, rfl, rfl, rfl, rfl, rfl, rfl, rfl, rfl, rfl, rfl, rfl, rfl⟩

theorem State.waitStart_same (s t : State) (h : s.waitStart = .next t) : s.SameButTime t := by
  rw [State.waitStart_eq s _ rfl] at h
  split at h
  · cases h; exact State.started_same _ _
  · cases h

theorem State.spinRead_same (s t : State) (h : s.spinRead = .next t) : s.SameButTime t := by
  unfold State.spinRead at h
  split at h
  · cases h; exact .rfl' _
  · split at h
    · cases h
    · next u hu =>
      have hs := State.clockFrom_same _ _ _ hu
      split at h
      · cases h; exact (hs.trans (State.setSched_same _ _)).trans (State.setSpin_same _ _)
      · cases h; exact hs.trans (State.setSpin_same _ _)

/-! ## A whole WAIT, interrupted or not -/

/-- A relation that every read of a spin and every count of a step keeps is kept by the spin. -/
theorem spinTo_rel (R : State → State → Prop) (htrans : ∀ s t u, R s t → R t u → R s u)
    (hbump : ∀ s, R s s.bumpUpc) (hread : ∀ s t, s.spinRead = .next t → R s t)
    (stop : Option Nat) (n : Nat) (s t : State) (h : spinTo stop n s = .next t) : R s t := by
  induction n generalizing s with
  | zero =>
    obtain ⟨u, hu, h'⟩ := thenRun_eq_next _ _ _ h
    cases h'
    exact htrans _ _ _ (hread _ _ hu) (hbump _)
  | succ n ih =>
    obtain ⟨u, hu, h'⟩ := thenRun_eq_next _ _ _ h
    have hs := htrans _ _ _ (hread _ _ hu) (hbump _)
    split at h'
    · exact htrans _ _ _ hs (ih _ h')
    · cases h'; exact hs

theorem State.spinOn_rel (R : State → State → Prop) (hrefl : ∀ s, R s s)
    (htrans : ∀ s t u, R s t → R t u → R s u) (hbump : ∀ s, R s s.bumpUpc)
    (hread : ∀ s t, s.spinRead = .next t → R s t)
    (stop : Option Nat) (s t : State) (h : s.spinOn stop = .next t) : R s t := by
  unfold State.spinOn at h
  split at h
  · cases h; exact hrefl _
  · split at h
    · cases h; exact hrefl _
    · exact spinTo_rel R htrans hbump hread _ _ _ _ h

/-- A relation that every step of a WAIT keeps is kept by the WAIT, interrupted or not. -/
theorem State.waitTo_rel (R : State → State → Prop) (hrefl : ∀ s, R s s)
    (htrans : ∀ s t u, R s t → R t u → R s u) (hbump : ∀ s, R s s.bumpUpc)
    (hstart : ∀ s t, s.waitStart = .next t → R s t) (hread : ∀ s t, s.spinRead = .next t → R s t)
    (stop : Option Nat) (s t : State) (h : s.waitTo stop = .next t) : R s t := by
  obtain ⟨u, hu, h'⟩ := thenRun_eq_next _ _ _ h
  exact htrans _ _ _ (hstart _ _ hu)
    (htrans _ _ _ (hbump _) (State.spinOn_rel R hrefl htrans hbump hread _ _ _ h'))

/-- WAIT writes `tl.sched` and the timebase alone (R171). -/
theorem State.waitTo_same (stop : Option Nat) (s t : State) (h : s.waitTo stop = .next t) :
    s.SameButTime t :=
  State.waitTo_rel State.SameButTime .rfl' (fun _ _ _ => .trans) State.bumpUpc_same
    State.waitStart_same State.spinRead_same stop s t h

theorem State.spinOn_same (stop : Option Nat) (s t : State) (h : s.spinOn stop = .next t) :
    s.SameButTime t :=
  State.spinOn_rel State.SameButTime .rfl' (fun _ _ _ => .trans) State.bumpUpc_same
    State.spinRead_same stop s t h

/-- The position apart, a step made changes nothing. -/
theorem State.bumpUpc_eq (s : State) :
    ∃ u n, s.bumpUpc = { s with ctl := { s.ctl with upc := u, steps := n } } := by
  unfold State.bumpUpc
  split
  · exact ⟨_, _, rfl⟩
  · exact ⟨s.ctl.upc, s.ctl.steps, rfl⟩

/-- The whole of an undisturbed spin: it ends where `spinEnd` says, or is refused there (R171, R176, R177). -/
theorem spinTo_none (d : Time) (n : Nat) (s : State) (hx : s.ctl.spin = some ⟨d, n⟩) :
    ∃ upc steps, spinTo none n s =
      if (spinEnd d.toNat n s.mono.toNat s.env.elapsed).1 < timeLimit then
        .next { s with
          mono := BitVec.ofNat 64 (spinEnd d.toNat n s.mono.toNat s.env.elapsed).1
          tl := ⟨d, s.tl.timing⟩
          ctl := { s.ctl with upc := upc, steps := steps, spin := none }
          env := { s.env with elapsed := (spinEnd d.toNat n s.mono.toNat s.env.elapsed).2 } }
      else .refused .timeRange := by
  induction n generalizing s with
  | zero =>
    have he : s.env.elapsed.value Sys2Proof.Config.elapsed = s.nextElapsed := rfl
    simp only [spinTo, spinEnd, State.spinRead, hx, if_true, State.clockFrom_eq, he]
    by_cases h : max (s.mono.toNat + s.nextElapsed) d.toNat < timeLimit
    · simp only [h, if_true, toNat_ofNat_time _ h, le_max_right]
      obtain ⟨a, b, hb⟩ := State.bumpUpc_eq (State.setSpin (State.setSched { s.dropElapsed with
        mono := BitVec.ofNat 64 (max (s.mono.toNat + s.nextElapsed) d.toNat) } d.toNat) none)
      refine ⟨a, b, ?_⟩
      simp only [thenRun_next, hb]
      simp [State.setSpin, State.setSched, State.dropElapsed, State.nextElapsed]
    · simp only [h, if_false]
      exact ⟨0, 0, rfl⟩
  | succ n ih =>
    have he : s.env.elapsed.value Sys2Proof.Config.elapsed = s.nextElapsed := rfl
    simp only [spinTo, spinEnd, State.spinRead, hx, State.clockFrom_eq, he,
      Nat.add_one_ne_zero, if_false, Nat.max_zero, Nat.add_sub_cancel]
    by_cases h : s.mono.toNat + s.nextElapsed < timeLimit
    · simp only [h, if_true, toNat_ofNat_time _ h]
      by_cases hd : d.toNat ≤ s.mono.toNat + s.nextElapsed
      · obtain ⟨a, b, hb⟩ := State.bumpUpc_eq (State.setSpin (State.setSched { s.dropElapsed with
          mono := BitVec.ofNat 64 (s.mono.toNat + s.nextElapsed) } d.toNat) none)
        refine ⟨a, b, ?_⟩
        simp only [hd, h, if_true, thenRun_next, State.setSpin_ctl_spin, Option.isSome_none,
          Bool.false_and, Bool.false_eq_true, if_false, hb]
        simp [State.setSpin, State.setSched, State.dropElapsed]
      · simp only [hd, if_false]
        obtain ⟨a, b, hb⟩ := State.bumpUpc_eq (State.setSpin { s.dropElapsed with
          mono := BitVec.ofNat 64 (s.mono.toNat + s.nextElapsed) } (some ⟨d, n⟩))
        obtain ⟨x, y, hi⟩ := ih _ (by rw [hb]; rfl :
          (State.setSpin { s.dropElapsed with
            mono := BitVec.ofNat 64 (s.mono.toNat + s.nextElapsed) } (some ⟨d, n⟩)).bumpUpc.ctl.spin
              = some ⟨d, n⟩)
        refine ⟨x, y, ?_⟩
        simp only [thenRun_next, State.setSpin_ctl_spin, Option.isSome_some, Bool.true_and, State.dueAt,
          Bool.not_false, if_true]
        rw [hi, hb]
        simp only [State.setSpin, State.dropElapsed, toNat_ofNat_time _ h]
    · have hd : d.toNat ≤ s.mono.toNat + s.nextElapsed := by
        have := d.isLt
        simp only [timeLimit] at h
        omega
      simp only [h, hd, if_true, if_false]
      exact ⟨0, 0, rfl⟩

/-- The state after a whole WAIT whose first read is `now`, but for the position. -/
def State.waited (s : State) (now : Nat) : State :=
  { s with
    mono := BitVec.ofNat 64 (s.waitEnd now)
    tl := ⟨BitVec.ofNat 64 (s.waitDeadline now), s.tl.timing⟩
    ctl := { s.ctl with spin := none }
    env := { s.env with
      elapsed := if s.waitDeadline now ≤ now then s.env.elapsed.rest
        else (spinEnd (s.waitDeadline now) (s.env.spins.value Sys2Proof.Config.spins) now
          s.env.elapsed.rest).2
      spins := if s.waitDeadline now ≤ now then s.env.spins else s.env.spins.rest } }

/-- Everything an undisturbed WAIT can do (R171, R172, R176, R177). -/
theorem State.wait_eq (s : State) (now : Nat) (hn : now = s.mono.toNat + s.nextElapsed) :
    ∃ upc steps, s.wait =
      if s.tl.sched.toNat + s.tl.timing.toNat < timeLimit ∧ now < timeLimit ∧
          s.waitDeadline now < timeLimit ∧ s.waitEnd now < timeLimit then
        .next { s.waited now with
          ctl := { s.ctl with upc := upc, steps := steps, spin := none } }
      else .refused .timeRange := by
  unfold State.wait State.waitTo
  rw [State.waitStart_eq s now hn]
  by_cases hc : s.tl.sched.toNat + s.tl.timing.toNat < timeLimit ∧ now < timeLimit ∧
      s.waitDeadline now < timeLimit
  · rw [if_pos hc, thenRun_next]
    obtain ⟨h1, h2, h3⟩ := hc
    obtain ⟨a, b, hb⟩ := (s.started now).bumpUpc_eq
    by_cases hd : s.waitDeadline now ≤ now
    · have hd' : ¬ now < s.waitDeadline now := by omega
      have he : s.waitEnd now = now := if_pos hd
      refine ⟨a, b, ?_⟩
      rw [if_pos ⟨h1, h2, h3, by omega⟩, hb]
      simp only [State.spinOn, State.started, State.waited, hd, hd', if_true, if_false, he]
    · have hd' : now < s.waitDeadline now := by omega
      have he : s.waitEnd now = (spinEnd (s.waitDeadline now)
        (s.env.spins.value Sys2Proof.Config.spins) now s.env.elapsed.rest).1 := if_neg hd
      have hx : (s.started now).bumpUpc.ctl.spin =
          some ⟨BitVec.ofNat 64 (s.waitDeadline now), s.env.spins.value Sys2Proof.Config.spins⟩ := by
        rw [hb]; simp only [State.started, hd', if_true]
      obtain ⟨c, d, hs⟩ := spinTo_none _ _ _ hx
      refine ⟨c, d, ?_⟩
      have ho : (s.started now).bumpUpc.spinOn none =
          spinTo none (s.env.spins.value Sys2Proof.Config.spins) (s.started now).bumpUpc := by
        unfold State.spinOn; rw [hx]; rfl
      rw [ho, hs, hb]
      simp only [State.started, State.waited, hd, hd', if_true, if_false, toNat_ofNat_time _ h3,
        toNat_ofNat_time _ h2, he, h1, h2, h3, true_and]
  · refine ⟨0, 0, ?_⟩
    rw [if_neg hc, thenRun_refused, if_neg (fun h => hc ⟨h.1, h.2.1, h.2.2.1⟩)]

end Sys2Proof.Machine
end

