-- ==== Sys2Proof/Laws/Run.lean ====
section
/-! SUPPORT. Running a program: the induction over its items packaged once, and a program nothing
interrupts as a plain fold. -/

namespace Sys2Proof.Machine

/-! ## One item -/

@[simp] theorem State.whileBusy_busy (s : State) (f : State → State) (h : s.regs.busy = true) :
    s.whileBusy f = f s := by simp [State.whileBusy, h]

@[simp] theorem State.whileBusy_idle (s : State) (f : State → State) (h : s.regs.busy = false) :
    s.whileBusy f = s := by simp [State.whileBusy, h]

/-- A line changes nothing of the host's script. -/
@[simp] theorem localEffect_script (l : Local) (s : State) : (localEffect l s).script = s.script := by
  cases l <;> simp [localEffect, State.needGpio]
  split <;> rfl

/-- A line takes no length of a spin. -/
@[simp] theorem localEffect_spins (l : Local) (s : State) :
    (localEffect l s).env.spins = s.env.spins := by
  cases l <;> simp [localEffect, State.needGpio]
  split <;> rfl

/-- A line is no step. -/
theorem localEffect_steps_le (l : Local) (s : State) : (localEffect l s).ctl.steps ≤ s.ctl.steps := by
  cases l <;> simp [localEffect, State.needGpio]
  split <;> simp [Control.idle]

@[simp] theorem opEffect_script (o : Op) (s : State) : (opEffect o s).script = s.script := by
  cases o <;> simp [opEffect]

@[simp] theorem opEffect_spins (o : Op) (s : State) : (opEffect o s).env.spins = s.env.spins := by
  cases o <;> simp [opEffect]

theorem opEffect_steps_le (o : Op) (s : State) : (opEffect o s).ctl.steps ≤ s.ctl.steps := by
  cases o <;> simp [opEffect, Control.idle]

@[simp] theorem State.bumpUpc_script (s : State) : s.bumpUpc.script = s.script := s.bumpUpc_same.script

@[simp] theorem State.bumpUpc_env (s : State) : s.bumpUpc.env = s.env := by
  unfold State.bumpUpc; split <;> rfl

@[simp] theorem State.bumpUpc_spin (s : State) : s.bumpUpc.ctl.spin = s.ctl.spin := by
  unfold State.bumpUpc; split <;> rfl

theorem State.bumpUpc_steps_le (s : State) : s.bumpUpc.ctl.steps ≤ s.ctl.steps + 1 := by
  unfold State.bumpUpc; split <;> simp

/-! ## One item of a run -/

theorem State.whileBusy_script (s : State) (f : State → State) (h : ∀ u, (f u).script = u.script) :
    (s.whileBusy f).script = s.script := by
  unfold State.whileBusy; split
  · exact h s
  · rfl

theorem State.stop_congr (s t : State) (h : t.script = s.script) : t.stop = s.stop := by
  simp [State.stop, h]

@[simp] theorem run_nil (s : State) : run [] s = .next s := rfl

theorem run_loc (l : Local) (r : List Item) (s : State) :
    run (.loc l :: r) s = run r (s.whileBusy (localEffect l)) := by
  unfold run
  rw [State.stop_congr s _ (State.whileBusy_script s _ (localEffect_script l))]
  rfl

theorem run_op (o : Op) (r : List Item) (s : State) :
    run (.op o :: r) s =
      if (s.whileBusy fun u => (opEffect o u).bumpUpc).due then
        .next (s.whileBusy fun u => (opEffect o u).bumpUpc)
      else run r (s.whileBusy fun u => (opEffect o u).bumpUpc) := by
  unfold run State.due
  rw [State.stop_congr s _ (State.whileBusy_script s (fun u => (opEffect o u).bumpUpc) (by simp))]
  rfl

theorem run_wait (r : List Item) (s : State) :
    run (.wait :: r) s =
      if s.regs.busy then
        thenRun (s.waitTo s.stop) fun u => if u.due then .next u else run r u
      else run r s := by
  unfold run
  rw [runTo]
  split
  · cases hw : s.waitTo s.stop with
    | next u =>
      have h : u.stop = s.stop := State.stop_congr _ _ (State.waitTo_same _ _ _ hw).script
      simp only [thenRun_next, State.due, h]
    | fault f => rfl
    | refused x => rfl
  · rfl

/-! ## The induction, once -/

/-- A relation that every item of a program and every step of a WAIT keeps is kept by the program,
interrupted or not. -/
theorem run_rel (R : State → State → Prop) (hrefl : ∀ s, R s s)
    (htrans : ∀ s t u, R s t → R t u → R s u) (items : List Item)
    (hloc : ∀ l, Item.loc l ∈ items → ∀ s, R s (localEffect l s))
    (hop : ∀ o, Item.op o ∈ items → ∀ s, R s (opEffect o s))
    (hbump : ∀ s, R s s.bumpUpc) (hstart : ∀ s t, s.waitStart = .next t → R s t)
    (hread : ∀ s t, s.spinRead = .next t → R s t)
    (s t : State) (h : run items s = .next t) : R s t := by
  induction items generalizing s with
  | nil => cases h; exact hrefl _
  | cons x r ih =>
    have ih' := fun u => ih (fun l hl => hloc l (List.mem_cons_of_mem _ hl))
      (fun o ho => hop o (List.mem_cons_of_mem _ ho)) u
    cases x with
    | loc l =>
      rw [run_loc] at h
      refine htrans _ _ _ ?_ (ih' _ h)
      unfold State.whileBusy
      split
      · exact hloc l List.mem_cons_self _
      · exact hrefl _
    | op o =>
      have hstep : R s (s.whileBusy fun u => (opEffect o u).bumpUpc) := by
        unfold State.whileBusy
        split
        · exact htrans _ _ _ (hop o List.mem_cons_self _) (hbump _)
        · exact hrefl _
      rw [run_op] at h
      split at h
      · cases h; exact hstep
      · exact htrans _ _ _ hstep (ih' _ h)
    | wait =>
      rw [run_wait] at h
      split at h
      · obtain ⟨u, hu, h⟩ := thenRun_eq_next _ _ _ h
        have hstep := State.waitTo_rel R hrefl htrans hbump hstart hread _ _ _ hu
        split at h
        · cases h; exact hstep
        · exact htrans _ _ _ hstep (ih' _ h)
      · exact ih' _ h

/-- What is left of a program holds no item the program does not. -/
theorem mem_dropOps (n : Nat) (items : List Item) (x : Item) (h : x ∈ dropOps n items) : x ∈ items := by
  induction items generalizing n with
  | nil => cases n <;> simp [dropOps] at h
  | cons y r ih =>
    cases n with
    | zero => simpa [dropOps] using h
    | succ n => cases y <;> exact List.mem_cons_of_mem _ (ih _ (by simpa [dropOps] using h))

/-- The same for a program that goes on from where it stopped. -/
theorem runFrom_rel (R : State → State → Prop) (hrefl : ∀ s, R s s)
    (htrans : ∀ s t u, R s t → R t u → R s u) (items : List Item)
    (hloc : ∀ l, Item.loc l ∈ items → ∀ s, R s (localEffect l s))
    (hop : ∀ o, Item.op o ∈ items → ∀ s, R s (opEffect o s))
    (hbump : ∀ s, R s s.bumpUpc) (hstart : ∀ s t, s.waitStart = .next t → R s t)
    (hread : ∀ s t, s.spinRead = .next t → R s t)
    (s t : State) (h : runFrom items s = .next t) : R s t := by
  unfold runFrom at h
  obtain ⟨u, hu, h⟩ := thenRun_eq_next _ _ _ h
  have hs := State.spinOn_rel R hrefl htrans hbump hread _ _ _ hu
  split at h
  · cases h; exact hs
  · exact htrans _ _ _ hs (run_rel R hrefl htrans _ (fun l hl => hloc l (mem_dropOps _ _ _ hl))
      (fun o ho => hop o (mem_dropOps _ _ _ ho)) hbump hstart hread _ _ h)

/-- A command stops only where its program does. -/
theorem State.launch_next (s t : State) (items : List Item) (h : s.launch items = .next t) :
    t = s.begin ∨ run items s.begin = .next t := by
  unfold State.launch at h
  split at h
  · cases h; exact .inl rfl
  · exact .inr h

/-! ## A program nothing interrupts -/

/-- The program from end to end, no host move landing. -/
def runAll : List Item → State → StepOutcome
  | [], s => .next s
  | .loc l :: r, s => runAll r (s.whileBusy (localEffect l))
  | .op o :: r, s => runAll r (s.whileBusy fun u => (opEffect o u).bumpUpc)
  | .wait :: r, s => if s.regs.busy then thenRun s.wait (runAll r) else runAll r s

theorem runAll_append (xs ys : List Item) (s : State) :
    runAll (xs ++ ys) s = thenRun (runAll xs s) (runAll ys) := by
  induction xs generalizing s with
  | nil => rfl
  | cons x r ih =>
    cases x with
    | loc l => exact ih _
    | op o => exact ih _
    | wait =>
      simp only [List.cons_append, runAll]
      split
      · rw [thenRun_assoc]; congr 1; funext u; exact ih _
      · exact ih _

/-- The WAITs of a program. -/
def countWaits : List Item → Nat
  | [] => 0
  | .loc _ :: r => countWaits r
  | .op _ :: r => countWaits r
  | .wait :: r => countWaits r + 1

theorem countOps_append (xs ys : List Item) : countOps (xs ++ ys) = countOps xs + countOps ys := by
  induction xs with
  | nil => simp [countOps]
  | cons x r ih => cases x <;> simp [countOps, ih] <;> omega

theorem countWaits_append (xs ys : List Item) :
    countWaits (xs ++ ys) = countWaits xs + countWaits ys := by
  induction xs with
  | nil => simp [countWaits]
  | cons x r ih => (cases x <;> simp [countWaits, ih]); omega

/-- One more WAIT spins no less. -/
theorem spinsAhead_le_succ (w : Nat) (d : Draws Nat) : spinsAhead w d ≤ spinsAhead (w + 1) d := by
  induction w generalizing d with
  | zero => simp [spinsAhead]
  | succ w ih => have := ih d.rest; simp only [spinsAhead] at *; omega

/-- No host move lands within the next `k - 1` steps. -/
def State.clear (s : State) (k : Nat) : Prop :=
  ∀ m, s.script.head? = some m → s.ctl.steps + k ≤ m.after

theorem State.clear_of_le (s t : State) (j k : Nat) (hs : t.script = s.script)
    (hu : t.ctl.steps + k ≤ s.ctl.steps + j) (h : s.clear j) : t.clear k := by
  intro m hm; rw [hs] at hm; exact le_trans hu (h m hm)

theorem State.not_due (s : State) (k : Nat) (hk : 1 ≤ k) (h : s.clear k) : s.due = false := by
  unfold State.due State.stop
  cases hs : s.script with
  | nil => rfl
  | cons m r =>
    have := h m (by simp [hs])
    have hn : ¬ m.after ≤ s.ctl.steps := by omega
    simp [State.dueAt, hn]

theorem State.not_due_of_idle (s : State) (h : s.regs.busy = false) : s.due = false := by
  unfold State.due State.dueAt; split <;> simp [h]

theorem State.whileBusy_clear_loc (s : State) (l : Local) (k : Nat) (h : s.clear k) :
    (s.whileBusy (localEffect l)).clear k := by
  unfold State.whileBusy; split
  · exact State.clear_of_le _ _ _ _ (by simp) (by have := localEffect_steps_le l s; omega) h
  · exact h

theorem State.whileBusy_clear_op (s : State) (o : Op) (k : Nat) (h : s.clear (k + 1)) :
    (s.whileBusy fun u => (opEffect o u).bumpUpc).clear k := by
  unfold State.whileBusy; split
  · refine State.clear_of_le s _ _ _ (by simp) ?_ h
    have := State.bumpUpc_steps_le (opEffect o s)
    have := opEffect_steps_le o s
    show (opEffect o s).bumpUpc.ctl.steps + k ≤ _
    omega
  · exact State.clear_of_le s s _ _ rfl (by omega) h

theorem State.whileBusy_spins (s : State) (f : State → State)
    (h : ∀ u, (f u).env.spins = u.env.spins) : (s.whileBusy f).env.spins = s.env.spins := by
  unfold State.whileBusy; split
  · exact h s
  · rfl

/-- A read of a spin makes no step of its own and takes no length of a spin. -/
theorem State.spinRead_supply (s t : State) (h : s.spinRead = .next t) :
    t.env.spins = s.env.spins ∧ t.ctl.steps = s.ctl.steps := by
  cases hx : s.ctl.spin with
  | none =>
    unfold State.spinRead at h
    rw [hx] at h
    cases h; exact ⟨rfl, rfl⟩
  | some x =>
    obtain ⟨_, _, h1, _, h2, _⟩ := State.spinRead_cases s t x hx h
    exact ⟨h1, h2⟩

/-- A spin that no host move lands in runs to its end, in at most `n + 1` steps. -/
theorem spinTo_clear (n : Nat) (s : State) (h : s.clear (n + 2)) :
    spinTo s.stop n s = spinTo none n s ∧
    ∀ t, spinTo none n s = .next t → t.ctl.steps ≤ s.ctl.steps + n + 1 ∧ t.env.spins = s.env.spins := by
  induction n generalizing s with
  | zero =>
    refine ⟨rfl, fun t ht => ?_⟩
    obtain ⟨u, hu, h'⟩ := thenRun_eq_next _ _ _ ht
    cases h'
    have h1 := State.spinRead_supply _ _ hu
    have h2 := State.bumpUpc_steps_le u
    exact ⟨by omega, by simpa using h1.1⟩
  | succ n ih =>
    cases hu : s.spinRead with
    | fault x => simp [spinTo, hu]
    | refused x => simp [spinTo, hu]
    | next u =>
      have h1 := State.spinRead_supply _ _ hu
      have h2 := State.bumpUpc_steps_le u
      have hs := (State.spinRead_same _ _ hu).trans u.bumpUpc_same
      have hc : u.bumpUpc.clear (n + 2) :=
        State.clear_of_le s _ _ _ hs.script (by omega) h
      have hstop : s.stop = u.bumpUpc.stop := (State.stop_congr _ _ hs.script).symm
      have hd := State.not_due _ _ (by omega) hc
      obtain ⟨ha, hb⟩ := ih _ hc
      simp only [spinTo, hu, thenRun_next]
      rw [State.due] at hd
      constructor
      · rw [hstop, hd, ha]; rfl
      · intro t ht
        split at ht
        · have := hb _ ht
          simp only [State.bumpUpc_env] at this
          exact ⟨by omega, this.2.trans h1.1⟩
        · cases ht
          exact ⟨by omega, by simpa using h1.1⟩

/-- The first step of a WAIT makes no step count of its own; it takes a length of a spin where it begins
one, and only then. -/
theorem State.waitStart_supply (s t : State) (h : s.waitStart = .next t) :
    t.ctl.steps = s.ctl.steps ∧
    ((t.ctl.spin = none ∧ t.env.spins = s.env.spins) ∨
     (∃ x, t.ctl.spin = some x ∧ x.left = s.env.spins.value Sys2Proof.Config.spins ∧
        t.env.spins = s.env.spins.rest)) := by
  rw [State.waitStart_eq s _ rfl] at h
  split at h
  · cases h
    refine ⟨rfl, ?_⟩
    by_cases hn : s.mono.toNat + s.nextElapsed < s.waitDeadline (s.mono.toNat + s.nextElapsed)
    · exact .inr ⟨⟨_, _⟩, by simp only [State.started, hn, if_true]; rfl, rfl,
        by simp only [State.started, hn, if_true]⟩
    · exact .inl ⟨by simp only [State.started, hn, if_false], by simp only [State.started, hn, if_false]⟩
  · cases h

/-- A WAIT that no host move lands in runs to its end within its budget of steps. -/
theorem State.waitTo_clear (w : Nat) (s : State) (h : s.clear (spinsAhead (w + 1) s.env.spins + 2)) :
    s.waitTo s.stop = s.wait ∧
    ∀ t, s.wait = .next t →
      t.ctl.steps + spinsAhead w t.env.spins ≤ s.ctl.steps + 1 + spinsAhead (w + 1) s.env.spins := by
  unfold State.wait State.waitTo
  cases hu : s.waitStart with
  | fault x => simp
  | refused x => simp
  | next u =>
    obtain ⟨h1, h2⟩ := State.waitStart_supply _ _ hu
    have h3 := State.bumpUpc_steps_le u
    have hs := (State.waitStart_same _ _ hu).trans u.bumpUpc_same
    simp only [thenRun_next, State.spinOn, State.bumpUpc_spin]
    rcases h2 with ⟨hn, he⟩ | ⟨x, hx, hl, he⟩
    · rw [hn]
      refine ⟨rfl, fun t ht => ?_⟩
      cases ht
      have := spinsAhead_le_succ w s.env.spins
      simp only [State.bumpUpc_env, he]
      omega
    · rw [hx]
      have hk : spinsAhead (w + 1) s.env.spins = x.left + 1 + spinsAhead w s.env.spins.rest := by
        rw [hl]; rfl
      rw [hk] at h ⊢
      have hc : u.bumpUpc.clear (x.left + 2) := State.clear_of_le s _ _ _ hs.script (by omega) h
      have hd := State.not_due _ _ (by omega) hc
      have hstop : s.stop = u.bumpUpc.stop := (State.stop_congr _ _ hs.script).symm
      obtain ⟨ha, hb⟩ := spinTo_clear _ _ hc
      rw [State.due] at hd
      refine ⟨by rw [hstop]; simp only [hd, ha]; rfl, fun t ht => ?_⟩
      have := hb t ht
      simp only [State.bumpUpc_env, he] at this
      rw [this.2]
      omega

/-- A program that ends in `finish` and that no host move interrupts runs from end to end. -/
theorem run_finish (xs : List Item) (c : Result) (s : State)
    (h : s.clear (countOps xs + 1 + spinsAhead (countWaits xs) s.env.spins)) :
    run (xs ++ [.op (.finish c)]) s =
      thenRun (runAll xs s) fun t => .next (t.whileBusy (State.finish · c)) := by
  induction xs generalizing s with
  | nil =>
    cases hb : s.regs.busy with
    | false =>
      simp [run_op, runAll, State.whileBusy, hb, State.not_due_of_idle]
    | true =>
      simp [run_op, runAll, State.whileBusy, hb, opEffect, State.bumpUpc]
  | cons x r ih =>
    cases x with
    | loc l =>
      rw [List.cons_append, run_loc]
      refine ih _ (State.whileBusy_clear_loc s l _ ?_)
      rw [State.whileBusy_spins _ _ (localEffect_spins l)]
      exact h
    | op o =>
      have he := State.whileBusy_spins s (fun u => (opEffect o u).bumpUpc) (by simp)
      have h' := State.whileBusy_clear_op s o (countOps r + 1 + spinsAhead (countWaits r) s.env.spins)
        (State.clear_of_le s s _ _ rfl (by simp only [countOps, countWaits]; omega) h)
      simp only [List.cons_append, run_op, runAll]
      rw [State.not_due _ _ (by omega) h']
      exact ih _ (by rw [he]; exact h')
    | wait =>
      simp only [List.cons_append, run_wait, runAll]
      simp only [countOps, countWaits] at h
      split
      · obtain ⟨hw, hb⟩ := State.waitTo_clear (countWaits r) s
          (State.clear_of_le s s _ _ rfl (by omega) h)
        rw [hw]
        cases hu : s.wait with
        | fault f => rfl
        | refused f => rfl
        | next u =>
          have := hb u hu
          have h' : u.clear (countOps r + 1 + spinsAhead (countWaits r) u.env.spins) :=
            State.clear_of_le s _ _ _ (State.waitTo_same _ _ _ hu).script (by omega) h
          simp only [thenRun_next]
          rw [State.not_due _ _ (by omega) h']
          exact ih _ h'
      · have := spinsAhead_le_succ (countWaits r) s.env.spins
        exact ih _ (State.clear_of_le s s _ _ rfl (by omega) h)

theorem State.begin_clear (s : State) (k : Nat) (h : s.quiet k = true) : s.begin.clear k := by
  intro m hm
  cases hs : s.script with
  | nil => simp [hs] at hm
  | cons x r =>
    simp only [State.quiet, hs, decide_eq_true_eq] at h
    simp only [State.begin_script, hs, List.head?_cons, Option.some.injEq] at hm
    subst hm
    simpa [Control.idle] using h

/-- A command whose program ends in `finish`, left undisturbed, runs from end to end (R256). -/
theorem State.launch_finish (s : State) (xs : List Item) (c : Result)
    (h : s.quietFor (countOps xs + 1) (countWaits xs) = true) :
    s.launch (xs ++ [.op (.finish c)]) =
      thenRun (runAll xs s.begin) fun t => .next (t.whileBusy (State.finish · c)) := by
  have hc := State.begin_clear s _ h
  unfold State.launch
  rw [State.not_due _ _ (by omega) hc]
  exact run_finish xs c _ hc

/-- A command that ends at once changes STATUS alone (R252). -/
theorem State.launch_finishOnly (s : State) (c : Result) (h : s.quiet 1 = true) :
    s.launch (finishOnly c) = .next (s.finish c) := by
  have := State.launch_finish s [] c (by simpa [State.quietFor, spinsAhead, countOps, countWaits] using h)
  simp only [List.nil_append] at this
  rw [finishOnly, this]
  simp [runAll]
  rfl

end Sys2Proof.Machine
end

