-- ==== Sys2Proof/Laws/Turn.lean ====
section
/-! SUPPORT. Whose turn it is, said once (10_state.md R30, 20_memory.md R79). -/

namespace Sys2Proof.Machine

/-- Where a host move lands, the step is that move, taken off the script. -/
theorem State.turn_of_lands (s : State) (a : HostAct) (rest : List HostMove) (h : s.lands a rest) :
    s.turn = ({ s with script := rest } : State).hostTurn a := by
  obtain ⟨k, hs, hb⟩ := h
  unfold State.turn State.popMove
  simp only [hs, List.tail_cons]
  rw [if_neg]
  rcases hb with hb | hb <;> simp [hb]

/-- A step is a host move's, the running command's, or nobody's. -/
theorem State.turn_cases (s : State) :
    (∃ a rest, s.lands a rest) ∨ (s.turn = .sequencer ∧ s.regs.busy = true) ∨
      (s.turn = .idle ∧ s.regs.busy = false) := by
  unfold State.turn
  cases hs : s.script with
  | nil => cases hb : s.regs.busy <;> simp
  | cons m r =>
    by_cases hc : s.regs.busy = true ∧ ¬ m.after ≤ s.ctl.steps
    · right; left; simp [hc]
    · left
      refine ⟨m.act, r, m.after, hs, ?_⟩
      cases hb : s.regs.busy
      · simp
      · right; simpa [hb] using hc

end Sys2Proof.Machine
end

