-- ==== Sys2Proof/Tests/Slice0.lean ====
section
/-! SUPPORT. Tests: expected results are the spec's own (30_encoding.md R106, 95_test_vectors.md, the worked
examples of the rules), and a witness for the hypotheses of every statement that has some. -/

namespace Sys2Proof.Tests

open Sys2Proof Sys2Proof.Machine

/-! ## Helpers -/

/-- The outcome is a next state with a property. -/
def nextIs (o : StepOutcome) (p : State → Bool) : Bool :=
  match o with
  | .next t => p t
  | .fault _ => false
  | .refused _ => false

theorem exists_next (o : StepOutcome) (p : State → Bool) (h : nextIs o p = true) :
    ∃ t, o = .next t ∧ p t = true := by
  cases o with
  | next t => exact ⟨t, rfl, h⟩
  | fault x => cases h
  | refused x => cases h

/-- The outcome is a refusal for that reason. -/
def refusedFor (o : StepOutcome) (r : Refusal) : Bool :=
  match o with
  | .next _ => false
  | .fault _ => false
  | .refused x => decide (x = r)

/-- R7's values with 1 ns per tick. -/
def par : Config.Params := { Config.standard with nsPerTick := 1, hostBase := 0 }

/-- Profile P86 of 95_test_vectors.md. -/
def p86 : Slot :=
  ⟨true, some 20, some 21, some 22, some 23, some 24, some 25, some 26, some 27, some 17, some 18,
    some 19, .a, 1000, 1000, 1000, 1000, 1000, .w8⟩

/-- Profile P4B of 95_test_vectors.md. -/
def p4b : Slot :=
  ⟨true, some 7, some 6, some 5, some 4, none, none, none, none, some 2, some 3, some 8, .b, 100, 200,
    150, 500, 300, .w4⟩

/-- The slot of R231. -/
def p4a : Slot := { p4b with variant := .a, tRead := 50, tProc := 400, tHold := 250 }

/-- The staging registers of P86 (R137). -/
def stage86 : Staging :=
  ⟨20, 21, 22, 23, 24, 25, 26, 27, 17, 18, 19, .a, 1000, 1000, 1000, 1000, 1000⟩

/-- P86 in slots 0, P4B in 1, R231's in 2, none in 3; the timebase passes `first` ns before the first
Clock() read and none before the later ones, each spin ends in its second step, right at its deadline; the
bank answers `bank`. -/
def st (first : Nat) (bank : List Word) : State :=
  { State.reset with
    params := par
    slots := [p86, p4b, p4a, Slot.empty]
    env := { Env.free with
      elapsed := ⟨first :: List.replicate 23 0, 0⟩, spins := ⟨List.replicate 24 0, 0⟩
      bank := ⟨bank, 0⟩, avail := ⟨[true], 0⟩ } }

/-- A host move that lands at once. -/
def now (a : HostAct) : HostMove := ⟨0, a⟩

/-- The state with host moves to come. -/
def withMoves (s : State) (l : List HostMove) : State := { s with script := l }

/-! ## WellFormed refuses what no field can carry -/

theorem test_wf_create : (Instr.create 16).wf = false := by decide
theorem test_wf_release : (Instr.release 16).wf = false := by decide
theorem test_wf_wrdata_slot : (Instr.wrdata 16 0).wf = false := by decide
theorem test_wf_wrdata_count : (Instr.wrdata 0 65536).wf = false := by decide
theorem test_wf_wrcmd : (Instr.wrcmd 16 0).wf = false := by decide
theorem test_wf_rddata_slot : (Instr.rddata 16 0).wf = false := by decide
theorem test_wf_rddata_count : (Instr.rddata 0 65536).wf = false := by decide
theorem test_wf_rdreg : (Instr.rdreg 16).wf = false := by decide

/-! ## Decoding: words of R106 and 95_test_vectors.md 2.1 -/

theorem test_decode_nop : decodeTableWord 32 0x12345670 = some .nop := by decide
theorem test_decode_create : decodeTableWord 32 0x00000031 = some (.create 3) := by decide
theorem test_decode_release : decodeTableWord 32 0x0000FF12 = some (.release 1) := by decide
theorem test_decode_wrdata : decodeTableWord 32 0x00020013 = some (.wrdata 1 2) := by decide
theorem test_decode_wrcmd : decodeTableWord 32 0x0000A504 = some (.wrcmd 0 0xA5) := by decide
theorem test_decode_rddata : decodeTableWord 32 0x00030005 = some (.rddata 0 3) := by decide
theorem test_decode_rdreg : decodeTableWord 32 0x00000026 = some (.rdreg 2) := by decide
theorem test_decode_illegal : decode 0xFFFFFFFF = .error (.illegalOp 0xF) := by decide
theorem test_encode_wrcmd : encode (.wrcmd 0 0xA5) = 0x0000A504 := by decide
theorem test_encode_wrdata : encode (.wrdata 1 2) = 0x00020013 := by decide

/-- The next step after `withFetchWord` runs the word, right from reset. -/
theorem test_withFetchWord : [0, 1, 2, 3, 4, 5, 6].all (fun w =>
    nextIs (step (State.reset.withFetchWord 32 w)) (fun _ => true)) = true := by decide

/-! ## Commands: the vectors of 95_test_vectors.md -/

set_option maxRecDepth 100000 in
/-- C1 (R137). -/
theorem test_create : nextIs (exec (.create 3) { st 0 [] with regs := { HostRegs.reset with staging := stage86 } })
    (fun t => t.port.tx = [.clr 0x00040000, .set 0x00080000, .mode 0x000E0000 .output,
        .mode 0x0FF00000 .input] ∧ t.slotAt 3 = p86) = true := by decide

set_option maxRecDepth 100000 in
/-- C7, C8, R130, R104, X6, X5: commands that make no transaction. -/
theorem test_no_transaction :
    nextIs (exec (.release 0) (st 0 [])) (fun t => t.regs.result = .ok ∧ (t.slotAt 0).valid = false ∧
      t.profStatus = 0x00060006 ∧ t.port.tx = []) = true ∧
    nextIs (exec (.release 3) (st 0 [])) (fun t => t.regs.status = 0x40 ∧ t.port.tx = []) = true ∧
    nextIs (exec .nop (st 0 [])) (fun t => t.regs.status = 0 ∧ t.port.tx = []) = true ∧
    nextIs (exec (.rdreg 3) (st 0 [])) (fun t => t.regs.status = 0x40) = true ∧
    nextIs (step (withMoves (st 0 []) [now (.write 32 0 0x47)])) (fun t => t.regs.status = 0x30) = true := by
  decide

set_option maxRecDepth 100000 in
/-- W1 (R202). -/
theorem test_wrcmd : nextIs (exec (.wrcmd 0 0xA5) (st 5000 []))
    (fun t => t.port.tx = [.mode 0x0FF00000 .output, .clr 0x00020000, .set 0x00080000, .clr 0x05A00000,
        .set 0x0A540000, .set 0x0A500000, .clr 0x05A40000, .mode 0x0FF00000 .input, .clr 0,
        .set 0x00080000] ∧ t.tl = ⟨7000, 1000⟩) = true := by decide

set_option maxRecDepth 100000 in
/-- W2 (R203): s0 = 1000, two groups, most significant nibble first. -/
theorem test_wrdata : nextIs (exec (.wrdata 1 1) { st 1000 [] with buf := [(0, 0x3C)] })
    (fun t => t.port.tx = [.mode 0xF0 .output, .set 0x104, .clr 0, .set 0x30, .clr 0xC8, .clr 0xC0,
        .set 0x38, .set 0xC0, .clr 0x38, .clr 0x30, .set 0xC8, .mode 0xF0 .input, .set 0x100, .clr 0] ∧
      t.tl = ⟨1800, 500⟩ ∧ t.regs.busy = false ∧ t.regs.result = .ok) = true := by decide

set_option maxRecDepth 100000 in
/-- RV2 (R231): 0x9 then 0xE make 0x9E. -/
theorem test_rddata : nextIs (exec (.rddata 2 1) (st 0 [0x90, 0xE0]))
    (fun t => t.port.tx.length = 14 ∧ t.buf = [(0, 0x9E)] ∧ t.regs.result = .ok) = true := by decide

set_option maxRecDepth 100000 in
/-- RV1 (R230), from sched 7000 and timing 1000. -/
theorem test_rdreg : nextIs (exec (.rdreg 0) { st 1000 [0x03C00000] with tl := ⟨7000, 1000⟩, mono := 7000 })
    (fun t => t.port.tx = [.clr 0x00080000, .clr 0x00020000, .set 0, .clr 0, .set 0x00040000,
        .read 0x03C00000, .set 0, .clr 0x00040000, .set 0x00080000] ∧
      t.regs.rdval = 0x3C ∧ t.tl = ⟨10000, 1000⟩) = true := by decide

/-! ## Time: T1, T3, T9 (95_test_vectors.md 2.4) -/

/-- A timeline at sched 5000, timing 1000, the timebase a first draw before `now`. -/
def at5000 (now : Nat) (mode : Config.ResyncMode) : State :=
  { st (now - 5000) [] with
    tl := ⟨5000, 1000⟩, mono := 5000, params := { par with resyncMode := mode } }

/-- T1's draws 5100, 5600, 6000: a spin of two further reads. -/
def drawsT1 : State :=
  { st 0 [] with
    tl := ⟨5000, 1000⟩, mono := 5000
    env := { Env.free with elapsed := ⟨[100, 500, 400], 0⟩, spins := ⟨[1], 0⟩ } }

theorem test_wait_T1 : nextIs drawsT1.wait
    (fun t => t.tl = ⟨6000, 1000⟩ ∧ t.mono = 6000 ∧ t.env.elapsed.next = []) = true := by decide

/-- T10's draw 12345 exists at a tick of 1000 ns (R166: only not below the earlier ones). -/
theorem test_clock_T10 :
    ({ st 12345 [] with params := { par with nsPerTick := 1000 } } : State).clockRead.map State.mono
      = some 12345 := by decide

/-- R172: in the spin after a REWAIT overrun, TL_SCHED_LO reads `now`. -/
theorem test_spin_rewait :
    nextIs (exec (.wrcmd 0 9) (withMoves (at5000 6001 .rewait) [⟨2, .read 32 0x58⟩]))
      (fun t => t.ctl.spin = some ⟨7001, 0⟩ ∧ t.regWord 0x58 = 6001) = true := by decide

set_option maxRecDepth 100000 in
/-- R228, R171: in the spin after a unit of RDDATA, BUF holds the new byte and `tl.sched` is still the old
one (the model's choice of log entry 17). -/
theorem test_spin_rddata :
    nextIs (exec (.rddata 2 2) (withMoves (st 0 [0x90, 0xE0]) [⟨30, .read 32 0x58⟩]))
      (fun t => t.ctl.spin.isSome ∧ t.buf = [(0, 0x9E)] ∧ t.tl.sched = 450 ∧ t.ctl.upc = 25) = true := by decide
theorem test_wait_T3_immediate : nextIs (at5000 6001 .immediate).wait
    (fun t => t.tl = ⟨6001, 1000⟩ ∧ t.mono = 6001) = true := by decide
theorem test_wait_T3_rewait : nextIs (at5000 6001 .rewait).wait
    (fun t => t.tl = ⟨7001, 1000⟩) = true := by decide
theorem test_wait_T9 :
    refusedFor { st 0 [] with tl := ⟨0xFFFFFFFFFFFFFFF6, 20⟩ }.wait .timeRange = true := by decide

/-! ## The host port -/

/-- A busy write: W2 of W7 with the host writing CMD after 3 micro-operations. -/
def busyWrite : State := withMoves (st 1000 []) [⟨3, .write 32 0 0⟩]

/-- W2's command stopped where the host's write lands. -/
def stopped : State :=
  { withMoves (st 1000 []) [⟨3, .write 32 0 0⟩] with
    regs := { HostRegs.reset with busy := true, cmd := 0x00010013 }
    ctl := { Control.idle with upc := 3, steps := 3 } }

/-- W7: CMD and BUF_DATA writes while BUSY = 1 are dropped; STATUS reads 3. -/
theorem test_busy_write :
    nextIs (step stopped) (fun t => t.regs.cmd = 0x00010013 ∧ t.regs.status = 3) = true ∧
    nextIs (step (withMoves stopped [now (.write 32 0x10 0x55)]))
      (fun t => t.buf = [] ∧ t.regs.status = 3) = true := by decide

/-! ## Witnesses: each shows states and operands that meet a statement's hypotheses -/

theorem lands_now (s : State) (a : HostAct) (l : List HostMove) : (withMoves s (now a :: l)).lands a l :=
  ⟨0, rfl, .inr (Nat.zero_le _)⟩

theorem no_reset (s : State) (m : HostMove) (l : List HostMove) (h : m.act ≠ .reset) :
    ∀ rest, ¬ (withMoves s (m :: l)).lands .reset rest := by
  rintro rest ⟨after, h', -⟩
  simp only [withMoves, List.cons.injEq] at h'
  exact h (by rw [h'.1])

/-- The state in which the host writes the command word `w`. -/
def cmd (s : State) (w : Word) : State := withMoves s [now (.write 32 0 w)]

theorem witness_DecodeInvertsEncode : Instr.nop.wf ∧ (Instr.create 15).wf ∧ (Instr.release 15).wf ∧
    (Instr.wrdata 15 65535).wf ∧ (Instr.wrcmd 15 0xFF).wf ∧ (Instr.rddata 15 65535).wf ∧
    (Instr.rdreg 15).wf := by decide

theorem witness_EveryWordIsOneRowOrIllegal :
    (wordOp 0xFFFFFFF6).toNat < 7 ∧ 7 ≤ (wordOp 0xFFFFFFF7).toNat ∧ 7 ≤ (wordOp 0xFFFFFFFF).toNat := by
  decide

theorem witness_OpcodeMapIgnoresUnusedFields :
    (65535 : Nat) < 65536 ∧ (15 : Nat) < 16 ∧ 7 ≤ (7 : BitVec 4).toNat := by decide

theorem witness_StepRunsTheAcceptedCommand :
    (cmd (st 0 []) 0x31).regs.busy = false ∧ (cmd (st 0 []) 0x31).lands (.write 32 0 0x31) [] ∧
    decode 0x31 = .ok (.create 3) := ⟨rfl, lands_now _ _ _, by decide⟩

theorem witness_CmdWritesAreAcceptedOrDropped :
    ((cmd (st 0 []) 7).lands (.write 32 0 7) [] ∧ (cmd (st 0 []) 7).regs.busy = false) ∧
    (stopped.lands (.write 32 0 0) [] ∧ stopped.regs.busy = true) ∧
    (withMoves (st 0 []) [now (.read 32 0)]).lands (.read 32 0) [] ∧
    (∃ t, step (cmd (st 0 []) 7) = .next t ∧ decide (t.regs.cmd = 7) = true) ∧
    ∀ rest, ¬ (cmd (st 0 []) 7).lands .reset rest :=
  ⟨⟨lands_now _ _ _, rfl⟩, ⟨⟨3, rfl, .inr (by decide)⟩, rfl⟩, lands_now _ _ _,
    exists_next _ (fun t => decide (t.regs.cmd = 7)) (by decide), no_reset _ _ _ (by decide)⟩

/-- OP 7 is the lowest illegal one, slot 4 the lowest that does not exist. -/
theorem witness_IllegalCommandsChangeOnlyStatus :
    (cmd (st 0 []) 7).regs.busy = false ∧ (cmd (st 0 []) 7).lands (.write 32 0 7) [] ∧
    7 ≤ (wordOp 7).toNat ∧ ({ cmd (st 0 []) 7 with script := [] } : State).quiet 1 = true ∧
    (st 0 []).params.numProfiles ≤ 4 ∧ (st 0 []).quiet 1 = true ∧ (wordOp 0xFFFFFFF0).toNat = 0 := by
  refine ⟨rfl, lands_now _ _ _, ?_⟩; decide

/-- PTR at the last index, where it wraps. -/
def ptrTop (s : State) : State := { s with regs := { s.regs with ptr := 0xFFFF } }

set_option maxRecDepth 100000 in
theorem witness_BufferPortRules :
    (withMoves (ptrTop (st 0 [])) [now (.write 32 0x0C 0x12345)]).lands (.write 32 0x0C 0x12345) [] ∧
    (withMoves (ptrTop (st 0 [])) [now (.read 32 0x10)]).lands (.read 32 0x10) [] ∧
    (withMoves (ptrTop (st 0 [])) [now (.write 32 0x10 0x55)]).lands (.write 32 0x10 0x55) [] ∧
    (withMoves stopped [now (.write 32 0x10 0x55)]).lands (.write 32 0x10 0x55) [] ∧
    (ptrTop (st 0 [])).regs.busy = false ∧ stopped.regs.busy = true ∧
    1 ≤ (st 0 []).params.bufSize ∧ (st 0 []).params.bufSize ≤ 65536 ∧
    (∃ t, exec .nop (st 0 []) = .next t ∧ decide (t.regs.busy = false) = true) ∧
    ∃ t, State.resume { stopped with script := [], tl := ⟨0, 0⟩ } = .next t ∧
      decide (t.regs.busy = false) = true :=
  ⟨lands_now _ _ _, lands_now _ _ _, lands_now _ _ _, lands_now _ _ _, by decide, by decide, by decide,
    by decide, exists_next _ (fun t => decide (t.regs.busy = false)) (by decide),
    exists_next _ (fun t => decide (t.regs.busy = false)) (by decide)⟩

theorem witness_StagingRegistersHoldWhatWasWritten :
    (withMoves (st 0 []) [now (.write 32 0x14 0xFFFFFFFF)]).lands (.write 32 0x14 0xFFFFFFFF) [] ∧
    (withMoves stopped [now (.write 32 0x54 5)]).lands (.write 32 0x54 5) [] :=
  ⟨lands_now _ _ _, lands_now _ _ _⟩

theorem witness_ReservedOffsetsReadZeroIgnoreWrites :
    (withMoves (st 0 []) [now (.read 32 0x68)]).lands (.read 32 0x68) [] ∧
    (withMoves (st 0 []) [now (.write 32 0xFC 1)]).lands (.write 32 0xFC 1) [] ∧
    0x68 % 4 = 0 ∧ 0xFC % 4 = 0 := ⟨lands_now _ _ _, lands_now _ _ _, by decide⟩

theorem witness_AccessesThatAreNotAlignedWordsAreRefused :
    (withMoves (st 0 []) [now (.read 8 0)]).lands (.read 8 0) [] ∧
    (withMoves (st 0 []) [now (.write 32 257 1)]).lands (.write 32 257 1) [] ∧ 257 % 4 ≠ 0 ∧
    (withMoves (st 0 []) [now (.read 32 252)]).lands (.read 32 252) [] ∧
    (withMoves stopped [now (.write 32 0 1)]).lands (.write 32 0 1) [] ∧ stopped.regs.busy = true ∧
    (withMoves (st 0 []) [now (.write 32 252 1)]).lands (.write 32 252 1) [] ∧ 252 % 4 = 0 :=
  ⟨lands_now _ _ _, lands_now _ _ _, by decide, lands_now _ _ _, lands_now _ _ _, rfl, lands_now _ _ _,
    by decide⟩

theorem witness_AccessesOutsideTheRegisterSpaceFault :
    (withMoves (st 0 []) [now (.read 32 256)]).lands (.read 32 256) [] ∧
    (withMoves (st 0 []) [now (.write 32 256 0)]).lands (.write 32 256 0) [] ∧ 256 % 4 = 0 :=
  ⟨lands_now _ _ _, lands_now _ _ _, by decide⟩

theorem witness_ProfStatusShowsValidAndCanRead :
    (withMoves (st 0 []) [now (.write 32 0x64 1)]).params.numProfiles ≤ 16 ∧
    (withMoves (st 0 []) [now (.write 32 0x64 1)]).lands (.write 32 0x64 1) [] :=
  ⟨by decide, lands_now _ _ _⟩

theorem witness_StatusAndTimelineViews :
    (withMoves (st 0 []) [now (.write 32 0x04 1)]).lands (.write 32 0x04 1) [] ∧
    (withMoves stopped [now (.write 32 0x60 1)]).lands (.write 32 0x60 1) [] :=
  ⟨lands_now _ _ _, lands_now _ _ _⟩

theorem witness_HostReadsReturnTheRegister :
    (withMoves (st 0 []) [now (.read 32 0x0C)]).lands (.read 32 0x0C) [] ∧
    (withMoves stopped [now (.read 32 0x58)]).lands (.read 32 0x58) [] ∧
    (withMoves stopped [now (.read 32 0xFC)]).lands (.read 32 0xFC) [] ∧ 0xFC % 4 = 0 ∧ 0xFC < 256 :=
  ⟨lands_now _ _ _, lands_now _ _ _, lands_now _ _ _, by decide⟩

/-- LOST is set by a dropped write, cleared by an accepted one, and RESULT changes at a finish. -/
theorem witness_StatusBitsChangeOnlyAsStated :
    (∃ t, step stopped = .next t ∧ (t.regs.lost : Bool) = true) ∧
    (∃ t, step (cmd (st 0 []).drop 7) = .next t ∧
      (!t.regs.lost && decide (t.regs.result ≠ .ok)) = true) ∧
    (∀ rest, ¬ stopped.lands .reset rest) ∧ (∀ rest, ¬ (cmd (st 0 []).drop 7).lands .reset rest) ∧
    (cmd (st 0 []).drop 7).regs.lost = true := by
  refine ⟨exists_next _ (fun t => t.regs.lost) (by decide), exists_next _ (fun t =>
    !t.regs.lost && decide (t.regs.result ≠ .ok)) (by decide), ?_, no_reset _ _ _ (by decide), rfl⟩
  rintro rest ⟨after, h, -⟩
  simp [stopped, withMoves] at h

/-- RDREG's start: the clock exact, the bank's answer 0x03C00000. -/
def readStart : State := cmd (st 0 [0x03C00000]) 0x00000006

set_option maxRecDepth 100000 in
theorem witness_RdvalIsWrittenByRdregAlone :
    (∃ t, step readStart = .next t ∧ decide (t.regs.rdval ≠ readStart.regs.rdval) = true) ∧
    ∀ rest, ¬ readStart.lands .reset rest :=
  ⟨exists_next _ (fun t => decide (t.regs.rdval ≠ readStart.regs.rdval)) (by decide),
    no_reset _ _ _ (by decide)⟩

theorem witness_NopFinishesOk :
    (st 0 []).quiet 1 = true ∧ (cmd (st 0 []) 0xFFFFFFF0).regs.busy = false ∧
    (cmd (st 0 []) 0xFFFFFFF0).lands (.write 32 0 0xFFFFFFF0) [] ∧ (wordOp 0xFFFFFFF0).toNat = 0 ∧
    ({ cmd (st 0 []) 0xFFFFFFF0 with script := [] } : State).quiet 1 = true :=
  ⟨by decide, rfl, lands_now _ _ _, by decide, by decide⟩

/-- 0, 27, 28 and -1 (N1-N5). -/
theorem witness_PinsAreNormalisedAsSignedNumbers :
    normPin 0 = some 0 ∧ normPin 27 = some 27 ∧ normPin 28 = none ∧ normPin 0xFFFFFFFF = none := by decide

/-- The first and the last slot, and the first that does not exist; `gpio_avail` 1 and 0. -/
theorem witness_CreateLatchesTheStagedProfile :
    (st 0 []).params.numProfiles ≤ 4 ∧ 0 < (st 0 []).params.numProfiles ∧ 3 < (st 0 []).params.numProfiles ∧
    (st 0 []).slots.length = (st 0 []).params.numProfiles ∧ (st 0 []).quiet 5 = true ∧
    (st 0 []).env.avail.value Config.gpioAvail = true ∧
    ({ st 0 [] with env := { Env.free with avail := ⟨[false], 0⟩ } } : State).env.avail.value
      Config.gpioAvail = false := by decide

theorem witness_ReleaseInvalidatesTheSlot :
    (st 0 []).params.numProfiles ≤ 4 ∧ 3 < (st 0 []).params.numProfiles ∧ (st 0 []).slots.length = (st 0 []).params.numProfiles ∧
    (st 0 []).quiet 1 = true ∧ ((st 0 []).slotAt 0).valid = true ∧ ((st 0 []).slotAt 3).valid = false := by
  decide

theorem witness_SlotsChangeOnlyByCreateReleaseReset :
    (∃ t, step (cmd (st 0 []) 0x12) = .next t ∧
      decide (t.slotAt 1 ≠ (cmd (st 0 []) 0x12).slotAt 1) = true) ∧
    ∃ t, step (withMoves (st 0 []) [now .reset]) = .next t ∧
      decide (t.slotAt 0 ≠ (withMoves (st 0 []) [now .reset]).slotAt 0) = true :=
  ⟨exists_next _ (fun t => decide (t.slotAt 1 ≠ (cmd (st 0 []) 0x12).slotAt 1)) (by decide),
    exists_next _ (fun t => decide (t.slotAt 0 ≠ (withMoves (st 0 []) [now .reset]).slotAt 0)) (by decide)⟩

/-- P_BUF_SIZE = 16 (X2-X4). -/
def small : State :=
  { st 0 [] with
    params := { par with bufSize := 16 }
    slots := [p86, { p86 with rwrd := none }, p4a, Slot.empty]
    env := { Env.free with
      elapsed := ⟨List.replicate 130 0, 0⟩, spins := ⟨List.replicate 65 0, 0⟩ } }

theorem witness_ChecksAreMadeInOrder :
    3 < small.params.numProfiles ∧ small.quiet 1 = true ∧ (small.slotAt 3).valid = false ∧
    ((small.slotAt 1).valid = true ∧ (small.slotAt 1).rwrd = none) ∧
    ((small.slotAt 0).valid = true ∧ small.params.bufSize < 17 ∧ (small.slotAt 0).rwrd ≠ none) := by decide

theorem witness_FailedCommandsWriteOnlyStatus :
    ∃ t, exec (.wrdata 0 17) small = .next t ∧
      (!t.regs.busy && decide (t.regs.result ≠ .ok)) = true :=
  exists_next _ (fun t => !t.regs.busy && decide (t.regs.result ≠ .ok)) (by decide)

/-- WRCMD 0, 0x09 in the spin after its first WAIT's overrun under REWAIT, its next move a read. -/
def spinning : State :=
  { withMoves (at5000 6001 .rewait) [⟨3, .read 32 0x58⟩] with
    regs := { HostRegs.reset with cmd := 0x904, busy := true }
    tl := ⟨6001, 1000⟩
    mono := 6001
    ctl := { Control.idle with upc := 1, steps := 2, spin := some ⟨7001, 1⟩ }
    env := { Env.free with elapsed := ⟨List.replicate 24 7, 0⟩, spins := ⟨List.replicate 24 0, 0⟩ } }

/-- The refusal happens, a deadline beyond 2^64 - 1; there is room, a host move to come; there is room in a
spin. -/
theorem witness_CommandsStopOnlyWhereTimeRunsOut :
    refusedFor (exec (.wrcmd 0 0) { st 0 [] with tl := ⟨0xFFFFFFFFFFFFFFF6, 20⟩ }) .timeRange = true ∧
    (st 0 []).waitsOf (.create 0) = 0 ∧
    (withMoves (st 5000 []) [⟨3, .reset⟩]).timeRoom ((st 5000 []).waitsOf (.wrcmd 0 9)) = true ∧
    decode spinning.regs.cmd = .ok (.wrcmd 0 9) ∧
    spinning.timeRoom (spinning.waitsOf (.wrcmd 0 9)) = true := by decide

/-- Past the deadline, at it, and before it. -/
theorem witness_WaitImmediateRule :
    (at5000 6001 .immediate).params.resyncMode = .immediate ∧
    (∃ t, (at5000 6001 .immediate).wait = .next t ∧ decide (t.tl.sched = 6001) = true) ∧
    (∃ t, (at5000 6000 .immediate).wait = .next t ∧ decide (t.tl.sched = 6000) = true) ∧
    (∃ t, (at5000 5100 .immediate).wait = .next t ∧ decide (t.tl.sched = 6000) = true) :=
  ⟨by decide, exists_next _ _ (by decide), exists_next _ _ (by decide), exists_next _ _ (by decide)⟩

theorem witness_WaitRewaitRule :
    (at5000 6001 .rewait).params.resyncMode = .rewait ∧
    (∃ t, (at5000 6001 .rewait).wait = .next t ∧ decide (t.tl.sched = 7001) = true) ∧
    (∃ t, (at5000 6000 .rewait).wait = .next t ∧ decide (t.tl.sched = 6000) = true) ∧
    (∃ t, (at5000 5100 .rewait).wait = .next t ∧ decide (t.tl.sched = 6000) = true) :=
  ⟨by decide, exists_next _ _ (by decide), exists_next _ _ (by decide), exists_next _ _ (by decide)⟩

/-- A WAIT at the top of the timebase: MONO_NS 2^64 - 10, the draws `ds`, one short read a spin. -/
def atTop (sched : Time) (timing : Word) (mode : Config.ResyncMode) (ds : List Nat) : State :=
  { st 0 [] with
    mono := 0xFFFFFFFFFFFFFFF6, tl := ⟨sched, timing⟩, params := { par with resyncMode := mode }
    env := { Env.free with elapsed := ⟨ds, 0⟩, spins := ⟨[1], 0⟩ } }

/-- Each way to the refusal at its boundary: the deadline is 2^64, the first read is, REWAIT's deadline is,
the read that ends the spin is; and a WAIT that ends at 2^64 - 1. -/
theorem witness_WaitIsRefusedOnlyOutOfRange :
    refusedFor (atTop 0xFFFFFFFFFFFFFFF6 10 .immediate [0]).wait .timeRange = true ∧
    refusedFor (atTop 0xFFFFFFFFFFFFFFF6 9 .immediate [10]).wait .timeRange = true ∧
    refusedFor (atTop 0xFFFFFFFFFFFFFFF0 1 .rewait [9]).wait .timeRange = true ∧
    refusedFor (atTop 0xFFFFFFFFFFFFFFF6 9 .immediate [8, 2]).wait .timeRange = true ∧
    (atTop 0xFFFFFFFFFFFFFFF6 9 .immediate [8, 1]).waitEnd (timeLimit - 2) = timeLimit - 1 ∧
    nextIs (atTop 0xFFFFFFFFFFFFFFF6 9 .immediate [8, 1]).wait
      (fun t => t.mono = 0xFFFFFFFFFFFFFFFF) = true ∧
    (st 5000 []).timeRoom 1 = true := by decide

/-- A first read short of the deadline, at it, and past it under both modes; a short read of a spin, the
last one fairness allows, and one past the deadline. -/
theorem witness_WaitTakesOneStepPerClockRead :
    (∃ t, (at5000 5100 .immediate).waitStart = .next t ∧ t.ctl.spin.isSome = true) ∧
    (∃ t, (at5000 6000 .rewait).waitStart = .next t ∧ t.ctl.spin.isNone = true) ∧
    (∃ t, (at5000 6001 .rewait).waitStart = .next t ∧ decide (t.tl.sched = 6001) = true) ∧
    (∃ t, (at5000 6001 .immediate).waitStart = .next t ∧ decide (t.tl.sched = 6001) = true) ∧
    (∃ t, spinning.spinRead = .next t ∧ decide (t.ctl.spin = some ⟨7001, 0⟩) = true) ∧
    (∃ t, (spinning.setSpin (some ⟨7001, 0⟩)).spinRead = .next t ∧ decide (t.mono = 7001) = true) ∧
    ∃ t, (spinning.setSpin (some ⟨6005, 4⟩)).spinRead = .next t ∧ decide (t.mono = 6008) = true :=
  ⟨exists_next _ (fun t => t.ctl.spin.isSome) (by decide),
    exists_next _ (fun t => t.ctl.spin.isNone) (by decide),
    exists_next _ (fun t => decide (t.tl.sched = 6001)) (by decide),
    exists_next _ (fun t => decide (t.tl.sched = 6001)) (by decide),
    exists_next _ (fun t => decide (t.ctl.spin = some ⟨7001, 0⟩)) (by decide),
    exists_next _ (fun t => decide (t.mono = 7001)) (by decide),
    exists_next _ (fun t => decide (t.mono = 6008)) (by decide)⟩

theorem witness_HostMovesLandInsideASpin :
    spinning.regs.busy = true ∧ spinning.ctl.spin = some ⟨7001, 1⟩ ∧
    spinning.script = [⟨spinning.ctl.steps + 1, .read 32 0x58⟩] ∧
    spinning.mono.toNat + spinning.nextElapsed < (7001 : Time).toNat := by decide

theorem witness_TimeNeverRunsBack :
    spinning.spinOk = true ∧ (∃ t, step spinning = .next t ∧ decide (t.mono = 6008) = true) ∧
    ∀ rest, ¬ spinning.lands .reset rest := by
  refine ⟨by decide, exists_next _ (fun t => decide (t.mono = 6008)) (by decide), ?_⟩
  rintro rest ⟨after, h, -⟩
  simp [spinning, withMoves] at h

/-- Both floors, and the last and another group. -/
theorem witness_DeassertDelaysAreFlooredByHold :
    p4b.tProc = (if 1 + 1 = p4b.bpc.groups then p4b.tProc else p4b.tClock) ∧
    p4b.tClock = (if 0 + 1 = p4b.bpc.groups then p4b.tProc else p4b.tClock) ∧
    par.holdFloorOnWrite = true ∧ ({ par with holdFloorOnWrite := false } : Config.Params).holdFloorOnWrite = false := by
  decide

theorem witness_DataMasksPutEachBitOnItsPin : (31 : Nat) < 32 ∧
    (p86.dataMasks 0xA5).s.getLsbD 20 = true ∧ (p86.dataMasks 0xA5).c.getLsbD 21 = true := by decide

/-- The highest bit of a group, and the first beyond it; a defined pin and an undefined one. -/
theorem witness_ExtractTakesEachBitFromItsPin :
    3 < p4b.bpc.bits ∧ p4b.bpc.bits ≤ 4 ∧ p4b.d (8 - p4b.bpc.bits + 3) = some 7 ∧
    ({ p86 with d7 := none } : Slot).d (8 - p86.bpc.bits + 7) = none := by decide

theorem witness_StrobeIsInTheSecondWrite :
    p86.enwr = some 18 ∧ disjoint p86.dataMask (pinBit p86.enwr) = true := by decide

theorem witness_WrcmdWritesTheCommandByte :
    0 < (st 5000 []).params.numProfiles ∧ p86 = (st 5000 []).slotAt 0 ∧ p86.valid = true ∧
    (st 5000 []).quietFor (p86.writeOps 1) (p86.waits 1) = true ∧
    (st 5000 []).timeRoom (p86.waits 1) = true := by decide

set_option maxRecDepth 100000 in
/-- n = 0 and n = P_BUF_SIZE. -/
theorem witness_WrdataWritesTheBuffer :
    2 < small.params.numProfiles ∧ p4a = small.slotAt 2 ∧ p4a.valid = true ∧
    0 ≤ small.params.bufSize ∧ 16 ≤ small.params.bufSize ∧
    small.quietFor (p4a.writeOps 0) (p4a.waits 0) = true ∧ small.timeRoom (p4a.waits 0) = true ∧
    small.quietFor (p4a.writeOps 16) (p4a.waits 16) = true ∧ small.timeRoom (p4a.waits 16) = true := by decide

/-- A tick of 3 ns, 7 ns before every Clock() read, one short read in every spin; the first WAIT's first
read is right at its deadline. -/
def late (bank : List Word) : State :=
  { st 0 [] with
    params := { par with nsPerTick := 3 }
    tl := ⟨100, 7⟩
    mono := 100
    env := { Env.free with
      elapsed := ⟨List.replicate 24 7, 0⟩, spins := ⟨List.replicate 24 1, 0⟩, bank := ⟨bank, 0⟩ } }

set_option maxRecDepth 100000 in
theorem witness_WriteScheduleIsExactWithoutOverrun :
    p4b = (late []).slotAt 1 ∧ (late []).noOverrun (writeDelays (late []).params p4b 1) = true ∧
    (∃ t, exec (.wrdata 1 1) (late []) = .next t ∧ (!t.regs.busy && decide (t.regs.result = .ok)) = true) ∧
    ∃ t, exec (.wrcmd 1 9) (late []) = .next t ∧ (!t.regs.busy && decide (t.regs.result = .ok)) = true :=
  ⟨by decide, by decide,
    exists_next _ (fun t => !t.regs.busy && decide (t.regs.result = .ok)) (by decide),
    exists_next _ (fun t => !t.regs.busy && decide (t.regs.result = .ok)) (by decide)⟩

theorem witness_WriteSpanFormula : par.holdFloorOnWrite = true ∧ 2 = p4b.bpc.groups := by decide

theorem witness_RdregReadsOneByteIntoRdval :
    0 < (st 5000 []).params.numProfiles ∧ p86 = (st 5000 []).slotAt 0 ∧ p86.valid = true ∧
    p86.rwrd ≠ none ∧ (st 5000 []).quietFor (p86.readOps 1) (p86.waits 1) = true ∧
    (st 5000 []).timeRoom (p86.waits 1) = true := by decide

set_option maxRecDepth 100000 in
theorem witness_RddataReadsIntoTheBuffer :
    2 < small.params.numProfiles ∧ p4a = small.slotAt 2 ∧ p4a.valid = true ∧ p4a.rwrd ≠ none ∧
    0 ≤ small.params.bufSize ∧ 16 ≤ small.params.bufSize ∧
    small.quietFor (p4a.readOps 0) (p4a.waits 0) = true ∧ small.timeRoom (p4a.waits 0) = true ∧
    small.quietFor (p4a.readOps 16) (p4a.waits 16) = true ∧ small.timeRoom (p4a.waits 16) = true := by decide

set_option maxRecDepth 100000 in
theorem witness_ReadScheduleIsExactWithoutOverrun :
    p4a = (late []).slotAt 2 ∧ (late [0x90, 0xE0]).noOverrun (readDelays p4a 1) = true ∧
    (∃ t, exec (.rddata 2 1) (late [0x90, 0xE0]) = .next t ∧
      (!t.regs.busy && decide (t.regs.result = .ok)) = true) ∧
    ∃ t, exec (.rdreg 2) (late [0x90, 0xE0]) = .next t ∧
      (!t.regs.busy && decide (t.regs.result = .ok)) = true :=
  ⟨by decide, by decide,
    exists_next _ (fun t => !t.regs.busy && decide (t.regs.result = .ok)) (by decide),
    exists_next _ (fun t => !t.regs.busy && decide (t.regs.result = .ok)) (by decide)⟩

set_option maxRecDepth 100000 in
/-- One completed transfer of each kind on one slot: it also meets DataLinesAreReleased,
WriteModeDefaultAfterTransfers (whose pins are all apart), TransfersLeaveTheRestAlone and
CommandsNameUsablePinsOnly. -/
theorem witness_TransactionCounts :
    (∃ t, exec (.wrdata 0 1) (st 0 []) = .next t ∧ (!t.regs.busy && decide (t.regs.result = .ok)) = true) ∧
    (∃ t, exec (.wrcmd 0 9) (st 0 []) = .next t ∧ (!t.regs.busy && decide (t.regs.result = .ok)) = true) ∧
    (∃ t, exec (.rddata 0 1) (st 0 [1]) = .next t ∧ (!t.regs.busy && decide (t.regs.result = .ok)) = true) ∧
    ∃ t, exec (.rdreg 0) (st 0 [1]) = .next t ∧ (!t.regs.busy && decide (t.regs.result = .ok)) = true :=
  ⟨exists_next _ (fun t => !t.regs.busy && decide (t.regs.result = .ok)) (by decide),
    exists_next _ (fun t => !t.regs.busy && decide (t.regs.result = .ok)) (by decide),
    exists_next _ (fun t => !t.regs.busy && decide (t.regs.result = .ok)) (by decide),
    exists_next _ (fun t => !t.regs.busy && decide (t.regs.result = .ok)) (by decide)⟩

theorem witness_CommandsNameUsablePinsOnly :
    ∃ t, exec (.create 3) (st 0 []) = .next t ∧ decide (t.port.tx.length = 2) = true :=
  exists_next _ (fun t => decide (t.port.tx.length = 2)) (by decide)

theorem witness_DataLinesAreReleased :
    ∃ t, exec (.create 3) (st 0 []) = .next t ∧ (!t.regs.busy && decide (t.regs.result = .ok)) = true :=
  exists_next _ (fun t => !t.regs.busy && decide (t.regs.result = .ok)) (by decide)

theorem witness_WriteModeDefaultAfterTransfers :
    p86 = (st 0 []).slotAt 0 ∧ p86.rwrd = some 19 ∧ p86.rscd = some 17 ∧ p86.enwr = some 18 ∧
    p86.rstb par = some 18 ∧
    disjoint (pinBit p86.rscd) (p86.dataMask ||| pinBit p86.enwr ||| pinBit p86.rwrd) = true ∧
    disjoint (pinBit p86.enwr) (p86.dataMask ||| pinBit p86.rwrd) = true ∧
    disjoint (pinBit (p86.rstb par)) (pinBit p86.rwrd) = true := by decide

/-- Stopped by a host move, BUSY still 1. -/
theorem witness_TransfersLeaveTheRestAlone :
    ∃ t, exec (.wrcmd 0 9) busyWrite = .next t ∧ (t.regs.busy : Bool) = true :=
  exists_next _ (fun t => t.regs.busy) (by decide)

theorem witness_ResetLeavesTheStatedValues :
    (withMoves stopped [now .reset]).lands .reset [] ∧ stopped.regs.busy = true :=
  ⟨lands_now _ _ _, rfl⟩

theorem witness_inv : (st 5000 []).Inv :=
  ⟨by decide, by decide, by decide, by decide, by decide, by decide, by decide, by decide, by decide,
    by decide, by decide⟩

theorem witness_EveryStepKeepsTheInvariant :
    (st 5000 []).Inv ∧ ∃ t, step (st 5000 []) = .next t ∧ decide (t.mono = 1) = true :=
  ⟨witness_inv, exists_next _ (fun t => decide (t.mono = 1)) (by decide)⟩

/-- WRCMD 0, 0x09 accepted. -/
def accepted : State :=
  { at5000 6001 .rewait with regs := { HostRegs.reset with cmd := 0x904, busy := true } }

theorem witness_ResumedCommandEndsAsIfUndisturbed :
    accepted.slots.length = accepted.params.numProfiles ∧ decode accepted.regs.cmd = .ok (.wrcmd 0 9) ∧
    ∃ t, exec (.wrcmd 0 9) { accepted with script := [⟨2, .read 32 0⟩] } = .next t ∧
      (t.regs.busy && t.ctl.spin.isSome) = true :=
  ⟨by decide, by decide, exists_next _ (fun t => t.regs.busy && t.ctl.spin.isSome) (by decide)⟩

set_option maxRecDepth 100000 in
/-- A CREATE stopped before its first micro-operation; the staging registers change; P86 is latched. -/
theorem witness_StagingWritesDoNotChangeTheRunningCommand :
    ∃ t, State.resume { st 0 [] with
      regs := { HostRegs.reset with cmd := 0x31, busy := true }
      ctl := { Control.idle with staged := stage86 } } = .next t ∧ decide (t.slotAt 3 = p86) = true :=
  exists_next _ (fun t => decide (t.slotAt 3 = p86)) (by decide)

theorem witness_IdleStepIsOneClockEdge :
    (st 0 []).regs.busy = false ∧ (st 0 []).script = [] ∧
    (st 0 []).mono.toNat + (st 0 []).params.nsPerTick < timeLimit := by decide

end Sys2Proof.Tests
end

section
/-! SUPPORT. A step, said once: what it answers where a host move lands, that an accepted command goes on as
a stopped one does, and the inversion of a step that answers a next state. -/

namespace Sys2Proof.Machine

/-! ## An accepted command is a running command -/

@[simp] theorem dropOps_zero (items : List Item) : dropOps 0 items = items := by cases items <;> rfl

/-- A command starts as a stopped command goes on: at position 0, in no spin. -/
theorem State.launch_eq_runFrom (s : State) (items : List Item) :
    s.launch items = runFrom items s.begin := by
  simp [State.launch, runFrom, State.spinOn, Control.idle]

/-- The meaning of an instruction is its program, run from the accepted state. -/
theorem exec_eq_runFrom (i : Instr) (s : State) : exec i s = runFrom (programOf i s.begin) s.begin := by
  rw [← State.launch_eq_runFrom]
  cases i <;> rfl

theorem execIllegal_eq_runFrom (s : State) : execIllegal s = runFrom illegalProgram s.begin :=
  s.launch_eq_runFrom illegalProgram

theorem State.running_of_decode (s : State) (i : Instr) (h : decode s.regs.cmd = .ok i) :
    s.running = programOf i s := by
  simp [State.running, h]

theorem State.running_of_reject (s : State) (e : Reject) (h : decode s.regs.cmd = .error e) :
    s.running = illegalProgram := by
  simp [State.running, h]

/-- Accepting a command is going on with it from the accepted state (R33, R105). -/
theorem State.resume_accept_of_decode (s : State) (w : Word) (i : Instr) (h : decode w = .ok i) :
    (s.accept w).begin.resume = exec i (s.accept w) := by
  rw [exec_eq_runFrom, State.resume, State.running_of_decode _ i h]

/-- So is accepting a word that is no command (R104). -/
theorem State.resume_accept_of_reject (s : State) (w : Word) (e : Reject) (h : decode w = .error e) :
    (s.accept w).begin.resume = execIllegal (s.accept w) := by
  rw [execIllegal_eq_runFrom, State.resume, State.running_of_reject _ e h]

/-! ## The step where a host move lands -/

/-- The state with the host's move taken off the script. -/
def State.withScript (s : State) (rest : List HostMove) : State := { s with script := rest }

@[simp] theorem State.withScript_regs (s : State) (r : List HostMove) : (s.withScript r).regs = s.regs := rfl

section
variable {s : State} {rest : List HostMove}

theorem step_of_lands_reset (h : s.lands .reset rest) : step s = .next (s.withScript rest).resetNow := by
  simp [step, State.turn_of_lands s _ rest h, State.hostTurn, State.withScript]

theorem step_of_lands_read {off : Nat} (h : s.lands (.read 32 off) rest) (ha : off % 4 = 0)
    (hlt : off < 256) : step s = .next ((s.withScript rest).hostRead off) := by
  simp [step, State.turn_of_lands s _ rest h, State.hostTurn, State.withScript, admitted, ha, hlt]

theorem step_of_lands_write {off : Nat} {v : Word} (h : s.lands (.write 32 off v) rest)
    (ha : off % 4 = 0) (h0 : off ≠ 0) (hlt : off < 256) :
    step s = .next ((s.withScript rest).writeReg off v) := by
  simp [step, State.turn_of_lands s _ rest h, State.hostTurn, State.withScript, admitted, ha, h0, hlt]

theorem step_of_lands_dropped {w : Word} (h : s.lands (.write 32 0 w) rest) (hb : s.regs.busy = true) :
    step s = .next (s.withScript rest).drop := by
  simp [step, State.turn_of_lands s _ rest h, State.hostTurn, State.withScript, admitted, hb]

theorem step_of_lands_accepted {w : Word} (h : s.lands (.write 32 0 w) rest) (hb : s.regs.busy = false) :
    step s = ((s.withScript rest).accept w).begin.resume := by
  have hturn : s.turn = .command w (s.withScript rest) := by
    simp [State.turn_of_lands s _ rest h, State.hostTurn, State.withScript, admitted, hb]
  unfold step
  rw [hturn]
  cases hd : decode w with
  | ok i => simp only [hd, State.resume_accept_of_decode _ w i hd]
  | error e => simp only [hd, State.resume_accept_of_reject _ w e hd]

end

/-! ## Everything a step can do -/

/-- The ways to a next state: the host's moves that answer one, the running command or the command just
accepted going on, and an idle clock edge. -/
inductive State.Moves (s t : State) : Prop where
  | reset (rest : List HostMove) (hl : s.lands .reset rest) (ht : t = (s.withScript rest).resetNow)
  | read (off : Nat) (rest : List HostMove) (hl : s.lands (.read 32 off) rest)
      (ht : t = (s.withScript rest).hostRead off)
  | dropped (w : Word) (rest : List HostMove) (hl : s.lands (.write 32 0 w) rest)
      (hb : s.regs.busy = true) (ht : t = (s.withScript rest).drop)
  | accepted (w : Word) (rest : List HostMove) (hl : s.lands (.write 32 0 w) rest)
      (hb : s.regs.busy = false) (ht : ((s.withScript rest).accept w).begin.resume = .next t)
  | written (off : Nat) (v : Word) (rest : List HostMove) (hl : s.lands (.write 32 off v) rest)
      (ht : t = (s.withScript rest).writeReg off v)
  | resumed (hb : s.regs.busy = true) (ht : s.resume = .next t)
  | idle (hb : s.regs.busy = false) (ht : s.idleTick = .next t)

theorem admitted_iff (bits off : Nat) : admitted bits off = true ↔ bits = 32 ∧ off % 4 = 0 := by
  simp [admitted]

theorem step_moves (s t : State) (h : step s = .next t) : s.Moves t := by
  rcases s.turn_cases with ⟨a, rest, hl⟩ | ⟨hq, hb⟩ | ⟨hq, hb⟩
  · cases a with
    | reset =>
      rw [step_of_lands_reset hl] at h
      cases h; exact .reset rest hl rfl
    | read bits off =>
      by_cases ha : bits = 32 ∧ off % 4 = 0
      · obtain ⟨rfl, ha⟩ := ha
        by_cases hlt : off < 256
        · rw [step_of_lands_read hl ha hlt] at h
          cases h; exact .read off rest hl rfl
        · simp [step, State.turn_of_lands s _ rest hl, State.hostTurn, admitted, ha, hlt] at h
      · simp [step, State.turn_of_lands s _ rest hl, State.hostTurn, admitted_iff, ha] at h
    | write bits off v =>
      by_cases ha : bits = 32 ∧ off % 4 = 0
      · obtain ⟨rfl, ha⟩ := ha
        by_cases h0 : off = 0
        · subst h0
          cases hb : s.regs.busy with
          | true =>
            rw [step_of_lands_dropped hl hb] at h
            cases h; exact .dropped v rest hl hb rfl
          | false =>
            rw [step_of_lands_accepted hl hb] at h
            exact .accepted v rest hl hb h
        · by_cases hlt : off < 256
          · rw [step_of_lands_write hl ha h0 hlt] at h
            cases h; exact .written off v rest hl rfl
          · simp [step, State.turn_of_lands s _ rest hl, State.hostTurn, admitted, ha, h0, hlt] at h
      · simp [step, State.turn_of_lands s _ rest hl, State.hostTurn, admitted_iff, ha] at h
  · rw [step, hq] at h; exact .resumed hb h
  · rw [step, hq] at h; exact .idle hb h

theorem State.idleTick_eq_next (s t : State) (h : s.idleTick = .next t) :
    t.mono.toNat = s.mono.toNat + s.params.nsPerTick ∧ t = { s with mono := t.mono } := by
  unfold State.idleTick at h
  split at h
  · cases h
  · next u hu =>
    cases h
    obtain ⟨hlt, rfl⟩ := State.setMono_eq_some _ _ _ hu
    exact ⟨toNat_ofNat_time _ hlt, rfl⟩

/-- Everything a host write at an offset but CMD's can do (R32-R42). -/
theorem State.writeReg_cases (s : State) (off : Nat) (v : Word) :
    s.writeReg off v = s.writePtr v ∨ (off = 0x10 ∧ s.writeReg off v = s.writeBufData v) ∨
      (∃ r, s.writeReg off v = s.stage r) ∨ s.writeReg off v = s := by
  unfold State.writeReg
  split
  case h_1 => exact .inl rfl
  case h_2 => exact .inr (.inl ⟨rfl, rfl⟩)
  case h_20 => exact .inr (.inr (.inr rfl))
  all_goals exact .inr (.inr (.inl ⟨_, rfl⟩))

theorem State.hostRead_data (s : State) : s.hostRead 0x10 =
    ({ s with reads := s.reads ++ [(0x10, (s.bufRead s.regs.ptr.toNat).setWidth 32)] } : State).bumpPtr := rfl

theorem State.hostRead_other (s : State) (off : Nat) (h : off ≠ 0x10) :
    s.hostRead off = { s with reads := s.reads ++ [(off, s.regWord off)] } := by
  simp [State.hostRead, h]

end Sys2Proof.Machine
end

section
/-! SUPPORT. The host port (10_state.md R32-R42): what each word shows, and what a host access does. -/

namespace Sys2Proof.Machine

/-! ## Reserved and read-only offsets -/

/-- No register stands at an offset from 0x68 on (R42). -/
theorem State.regWord_reserved (s : State) (off : Nat) (h : 0x68 ≤ off) : s.regWord off = 0 := by
  unfold State.regWord
  split
  case h_27 => rfl
  all_goals omega

theorem State.writeReg_reserved (s : State) (off : Nat) (v : Word) (h : 0x58 ≤ off) :
    s.writeReg off v = s := by
  unfold State.writeReg
  split
  case h_20 => rfl
  all_goals omega

/-- Settles O10: a reserved offset has no word to show and none to change. -/
theorem reservedOffsetsReadZeroIgnoreWrites : Obligations.ReservedOffsetsReadZeroIgnoreWrites := by
  intro s off rest hlo hhi ha
  have hlt : off < 256 := by omega
  refine ⟨fun hl => ?_, fun v hl => ?_⟩
  · rw [step_of_lands_read hl ha hlt, State.hostRead_other _ _ (by omega),
      State.regWord_reserved _ off hlo]
    rfl
  · rw [step_of_lands_write hl ha (by omega) hlt, State.writeReg_reserved _ off v (by omega)]
    rfl

/-- Settles O15: a read but BUF_DATA's records its word, and each word is the field it is defined by. -/
theorem hostReadsReturnTheRegister : Obligations.HostReadsReturnTheRegister := by
  refine ⟨fun s off rest hlt ha hne hl => ?_, fun s => ⟨rfl, rfl, rfl, ?_, rfl, rfl⟩⟩
  · rw [step_of_lands_read hl ha hlt, State.hostRead_other _ _ hne]
    rfl
  · show s.regs.staging.variant.proto = _
    cases s.regs.staging.variant <;> rfl

/-- Settles O53: the edge of an idle sequencer's clock has room, so it moves the timebase alone. -/
theorem idleStepIsOneClockEdge : Obligations.IdleStepIsOneClockEdge := by
  intro s hb hs hlt
  have ht : s.turn = .idle := by simp [State.turn, hs, hb]
  have hstep : step s = .next { s with mono := BitVec.ofNat 64 (s.mono.toNat + s.params.nsPerTick) } := by
    simp [step, ht, State.idleTick, State.setMono, hlt]
  exact ⟨_, hstep, toNat_ofNat_time _ hlt, rfl⟩

/-- Settles O5: the accepted command's step is its meaning at the accepted state. -/
theorem stepRunsTheAcceptedCommand : Obligations.StepRunsTheAcceptedCommand := by
  intro s w rest i hb hl hd
  rw [step_of_lands_accepted hl hb, State.resume_accept_of_decode _ w i hd]
  rfl

/-! ## STATUS, PROF_STATUS and the timeline views -/

/-- The bits of STATUS, counted through its parts from bit 0 up (R32, R34). -/
theorem HostRegs.getLsbD_status (r : HostRegs) (i : Nat) : r.status.getLsbD i =
    if i = 0 then r.busy else if i = 1 then r.lost
    else decide (4 ≤ i ∧ i < 8) && r.result.code.getLsbD (i - 4) := by
  unfold HostRegs.status
  simp only [BitVec.getLsbD_append, BitVec.getLsbD_ofBool, BitVec.getLsbD_zero]
  rcases i with _ | _ | i
  · simp
  · simp
  · grind

theorem HostRegs.status_fields (r : HostRegs) : r.status.extractLsb' 4 4 = r.result.code ∧
    r.status.extractLsb' 2 2 = 0 ∧ r.status.extractLsb' 8 24 = 0 := by
  refine ⟨?_, ?_, ?_⟩
  · ext i hi; simp [HostRegs.getLsbD_status]; grind
  · ext i hi; simp [HostRegs.getLsbD_status]; grind
  · ext i hi; simp [HostRegs.getLsbD_status]; grind

theorem State.schedHi_append_schedLo (s : State) : s.schedHi ++ s.schedLo = s.tl.sched := by
  unfold State.schedHi State.schedLo
  rw [BitVec.extractLsb'_append_extractLsb'_eq_extractLsb' (by rfl), BitVec.extractLsb'_eq_self]

/-- Settles O14: the bits of STATUS, the two halves of `tl.sched`, and offsets that no write reaches. -/
theorem statusAndTimelineViews : Obligations.StatusAndTimelineViews := by
  intro s
  obtain ⟨hresult, hlow, hhigh⟩ := s.regs.status_fields
  refine ⟨HostRegs.getLsbD_status s.regs 0, HostRegs.getLsbD_status s.regs 1, hresult, hlow, hhigh,
    s.schedHi_append_schedLo, rfl, fun off v rest hoff hl => ?_⟩
  simp only [List.mem_cons, List.not_mem_nil, or_false] at hoff
  rcases hoff with rfl | rfl | rfl | rfl | rfl <;>
    exact step_of_lands_write hl (by decide) (by decide) (by decide)

/-- Bit `i` of a word that collects a bit of each of `k` slots at `n` and another at `16 + n`. -/
theorem getLsbD_foldl_two_bits (f g : Nat → Bool) (k i : Nat) (hi : i < 32) :
    ((List.range k).foldl (fun (w : Word) n => w ||| ((BitVec.ofBool (f n)).setWidth 32 <<< n)
      ||| ((BitVec.ofBool (g n)).setWidth 32 <<< (16 + n))) 0).getLsbD i =
    ((decide (i < k) && f i) || (decide (16 ≤ i ∧ i < 16 + k) && g (i - 16))) := by
  induction k with
  | zero => simp
  | succ k ih =>
    rw [List.range_succ, List.foldl_append]
    simp only [List.foldl_cons, List.foldl_nil, BitVec.getLsbD_or, ih, BitVec.getLsbD_shiftLeft,
      BitVec.getLsbD_setWidth, BitVec.getLsbD_ofBool]
    grind

/-- The bits of PROF_STATUS (R41). -/
theorem State.getLsbD_profStatus (s : State) (i : Nat) (hi : i < 32) : s.profStatus.getLsbD i =
    ((decide (i < s.params.numProfiles) && (s.slotAt i).valid) ||
      (decide (16 ≤ i ∧ i < 16 + s.params.numProfiles) && (s.slotAt (i - 16)).canRead)) :=
  getLsbD_foldl_two_bits (fun n => (s.slotAt n).valid) (fun n => (s.slotAt n).canRead) _ i hi

/-- Settles O13: at most 16 slots, so the VALID bits and the CANREAD bits do not meet. -/
theorem profStatusShowsValidAndCanRead : Obligations.ProfStatusShowsValidAndCanRead := by
  intro s h16
  refine ⟨fun n hn => ⟨?_, ?_⟩, fun v rest hl => ?_⟩
  · have hlow : ¬ 16 ≤ n := by omega
    rw [show s.regWord 0x64 = s.profStatus from rfl, State.getLsbD_profStatus s n (by omega)]
    simp [hlow]
  · have hhigh : ¬ 16 + n < s.params.numProfiles := by omega
    rw [show s.regWord 0x64 = s.profStatus from rfl, State.getLsbD_profStatus s (16 + n) (by omega)]
    simp [hhigh, Slot.canRead, Bool.and_assoc]
  · exact step_of_lands_write hl (by decide) (by decide) (by decide)

/-! ## Staging registers -/

/-- The offsets of the staging registers (R32). -/
def stagingOffsets : List Nat :=
  [0x14, 0x18, 0x1C, 0x20, 0x24, 0x28, 0x2C, 0x30, 0x34, 0x38, 0x3C, 0x40, 0x44, 0x48, 0x4C, 0x50, 0x54]

theorem stagingOffsets_word : ∀ off ∈ stagingOffsets, off % 4 = 0 ∧ off ≠ 0 ∧ off < 256 := by decide

/-- PROTO keeps bit 0 alone (R37). -/
theorem protoVariant_proto (v : Word) : (protoVariant v).proto = v &&& 1 := by
  unfold protoVariant
  split <;> ext i hi <;> rcases i with _ | i <;> simp_all [Variant.proto]

/-- A write at a staging offset writes the staging registers alone. -/
theorem State.writeReg_staging (s : State) (off : Nat) (v : Word) (h : off ∈ stagingOffsets) :
    ∃ r, s.writeReg off v = s.stage r := by
  simp only [stagingOffsets, List.mem_cons, List.not_mem_nil, or_false] at h
  rcases h with rfl | rfl | rfl | rfl | rfl | rfl | rfl | rfl | rfl | rfl | rfl | rfl | rfl | rfl | rfl |
    rfl | rfl <;> exact ⟨_, rfl⟩

/-- A staging register reads as the word written. -/
theorem State.regWord_writeReg_staging (s : State) (off : Nat) (v : Word) (h : off ∈ stagingOffsets) :
    (s.writeReg off v).regWord off = if off = 0x14 then v &&& 1 else v := by
  simp only [stagingOffsets, List.mem_cons, List.not_mem_nil, or_false] at h
  rcases h with rfl | rfl | rfl | rfl | rfl | rfl | rfl | rfl | rfl | rfl | rfl | rfl | rfl | rfl | rfl |
    rfl | rfl
  · exact protoVariant_proto v
  all_goals rfl

/-- No other register's word shows the one written. -/
theorem State.regWord_writeReg_staging_other (s : State) (off j : Nat) (v : Word)
    (h : off ∈ stagingOffsets) (hj : j ≠ off) : (s.writeReg off v).regWord j = s.regWord j := by
  simp only [stagingOffsets, List.mem_cons, List.not_mem_nil, or_false] at h
  rcases h with rfl | rfl | rfl | rfl | rfl | rfl | rfl | rfl | rfl | rfl | rfl | rfl | rfl | rfl | rfl |
    rfl | rfl
  all_goals
    unfold State.regWord
    split
    all_goals (try exact absurd rfl hj)
    all_goals rfl

/-- Settles O9: the write lands as a staging write, whatever the sequencer does. -/
theorem stagingRegistersHoldWhatWasWritten : Obligations.StagingRegistersHoldWhatWasWritten := by
  intro s off v rest hoff hl
  obtain ⟨ha, h0, hlt⟩ := stagingOffsets_word off hoff
  refine ⟨_, step_of_lands_write hl ha h0 hlt, State.regWord_writeReg_staging _ off v hoff,
    fun j hj => State.regWord_writeReg_staging_other _ off j v hoff hj, ?_⟩
  obtain ⟨r, hr⟩ := State.writeReg_staging (s.withScript rest) off v hoff
  rw [hr]
  rfl

/-! ## Reset -/

theorem slotAt_of_replicate (s : State) (k : Nat) (h : s.slots = List.replicate k Slot.empty) (n : Nat) :
    s.slotAt n = Slot.empty := by
  unfold State.slotAt
  rw [h, List.getElem?_replicate]
  split <;> rfl

/-- With no slot valid, PROF_STATUS reads 0 (R41). -/
theorem State.profStatus_eq_zero (s : State) (h : ∀ n, s.slotAt n = Slot.empty) : s.profStatus = 0 := by
  refine BitVec.eq_of_getLsbD_eq fun i hi => ?_
  rw [State.getLsbD_profStatus s i hi, h, h]
  simp [Slot.empty, Slot.canRead]

/-- The words of a machine whose registers, slots and timeline have their reset values (R32's reset column). -/
theorem State.regWord_of_reset_values (t : State) (hr : t.regs = HostRegs.reset)
    (hs : ∀ n, t.slotAt n = Slot.empty) (htl : t.tl = ⟨0, 0⟩) :
    (∀ off ∈ [0x00, 0x04, 0x08, 0x0C, 0x14, 0x44, 0x48, 0x4C, 0x50, 0x54, 0x58, 0x5C, 0x60, 0x64, 0x80],
      t.regWord off = 0) ∧
    (∀ off ∈ [0x18, 0x1C, 0x20, 0x24, 0x28, 0x2C, 0x30, 0x34, 0x38, 0x3C, 0x40],
      t.regWord off = 0xFFFFFFFF) := by
  have hp := t.profStatus_eq_zero hs
  simp [State.regWord, hr, hp, htl, State.schedLo, State.schedHi, HostRegs.reset, Staging.reset,
    HostRegs.status, Result.code, Variant.proto]

/-- Settles O48: the step is the reset, and power-on and reset leave the same register words. -/
theorem resetLeavesTheStatedValues : Obligations.ResetLeavesTheStatedValues := by
  have hempty : ∀ s : State, ∀ n, s.resetNow.slotAt n = Slot.empty := fun s =>
    slotAt_of_replicate _ _ rfl
  refine ⟨fun s rest hl => ?_, fun t ht => ?_⟩
  · refine ⟨_, step_of_lands_reset hl, rfl, fun n => ?_, rfl, rfl, rfl, rfl, rfl⟩
    rw [hempty]; rfl
  · rcases ht with rfl | ⟨s, rfl⟩
    · exact State.regWord_of_reset_values _ rfl (slotAt_of_replicate _ _ rfl) rfl
    · exact State.regWord_of_reset_values _ rfl (hempty s) rfl

/-! ## PTR and BUF -/

theorem toNat_ofNat_mod (n size : Nat) (hpos : 1 ≤ size) (hle : size ≤ 65536) :
    (BitVec.ofNat 16 (n % size)).toNat = n % size := by
  rw [BitVec.toNat_ofNat]
  exact Nat.mod_eq_of_lt (lt_of_lt_of_le (Nat.mod_lt n hpos) hle)

theorem State.writePtr_toNat (s : State) (v : Word) (hpos : 1 ≤ s.params.bufSize)
    (hle : s.params.bufSize ≤ 65536) :
    (s.writePtr v).regs.ptr.toNat = (v.extractLsb' 0 16).toNat % s.params.bufSize :=
  toNat_ofNat_mod _ _ hpos hle

theorem State.bumpPtr_toNat (s : State) (hpos : 1 ≤ s.params.bufSize) (hle : s.params.bufSize ≤ 65536) :
    s.bumpPtr.regs.ptr.toNat = (s.regs.ptr.toNat + 1) % s.params.bufSize :=
  toNat_ofNat_mod _ _ hpos hle

theorem State.writeReg_data (s : State) (v : Word) : s.writeReg 0x10 v = s.writeBufData v := rfl

/-- A write of BUF_DATA while a command runs is dropped (R36). -/
theorem State.writeBufData_busy (s : State) (v : Word) (h : s.regs.busy = true) :
    s.writeBufData v = s.drop := by
  simp [State.writeBufData, h]

theorem State.writeBufData_idle (s : State) (v : Word) (h : s.regs.busy = false) :
    s.writeBufData v = (s.bufWrite s.regs.ptr.toNat (v.extractLsb' 0 8)).bumpPtr := by
  simp [State.writeBufData, h]

end Sys2Proof.Machine
end

section
/-! SUPPORT. A change of the state that every item of a program commutes with is one that no command, started
or going on, can see or undo. -/

namespace Sys2Proof.Machine

/-- A change of state that commutes with every item of a program and every step of a WAIT, and that leaves
alone what says where a program stops. -/
structure CommutesWithItems (f : State → State) : Prop where
  busy : ∀ s, (f s).regs.busy = s.regs.busy
  script : ∀ s, (f s).script = s.script
  steps : ∀ s, (f s).ctl.steps = s.ctl.steps
  upc : ∀ s, (f s).ctl.upc = s.ctl.upc
  spin : ∀ s, (f s).ctl.spin = s.ctl.spin
  loc : ∀ l s, localEffect l (f s) = f (localEffect l s)
  op : ∀ o s, opEffect o (f s) = f (opEffect o s)
  bump : ∀ s, (f s).bumpUpc = f s.bumpUpc
  start : ∀ s, (f s).waitStart = thenRun s.waitStart fun t => .next (f t)
  read : ∀ s, (f s).spinRead = thenRun s.spinRead fun t => .next (f t)

namespace CommutesWithItems

variable {f : State → State} (hf : CommutesWithItems f)
include hf

theorem stop (s : State) : (f s).stop = s.stop := State.stop_congr _ _ (hf.script s)

theorem dueAt (s : State) (k : Option Nat) : (f s).dueAt k = s.dueAt k := by
  simp [State.dueAt, hf.steps, hf.busy]

theorem due (s : State) : (f s).due = s.due := by
  simp [State.due, hf.dueAt, hf.stop]

theorem whileBusy (s : State) (g : State → State) (hg : ∀ u, g (f u) = f (g u)) :
    (f s).whileBusy g = f (s.whileBusy g) := by
  unfold State.whileBusy
  rw [hf.busy, hg]
  split <;> rfl

theorem spinTo (k : Option Nat) (n : Nat) (s : State) :
    Machine.spinTo k n (f s) = thenRun (Machine.spinTo k n s) fun t => .next (f t) := by
  induction n generalizing s with
  | zero => simp [Machine.spinTo, hf.read, thenRun_assoc, hf.bump]
  | succ n ih =>
    simp only [Machine.spinTo, hf.read, thenRun_assoc, thenRun_next, hf.bump, hf.spin, hf.dueAt]
    congr 1
    funext t
    split
    · exact ih _
    · rfl

theorem spinOn (k : Option Nat) (s : State) :
    (f s).spinOn k = thenRun (s.spinOn k) fun t => .next (f t) := by
  unfold State.spinOn
  rw [hf.spin, hf.dueAt]
  split
  · rfl
  · split
    · rfl
    · exact hf.spinTo _ _ _

theorem waitTo (k : Option Nat) (s : State) :
    (f s).waitTo k = thenRun (s.waitTo k) fun t => .next (f t) := by
  simp only [State.waitTo, hf.start, thenRun_assoc, thenRun_next, hf.bump, hf.spinOn]

theorem run (items : List Item) (s : State) :
    Machine.run items (f s) = thenRun (Machine.run items s) fun t => .next (f t) := by
  induction items generalizing s with
  | nil => rfl
  | cons x r ih =>
    cases x with
    | loc l =>
      rw [run_loc, run_loc, hf.whileBusy s _ (hf.loc l)]
      exact ih _
    | op o =>
      have hg : ∀ u, (opEffect o (f u)).bumpUpc = f (opEffect o u).bumpUpc := fun u => by
        rw [hf.op, hf.bump]
      rw [run_op, run_op, hf.whileBusy s _ hg, hf.due]
      split
      · rfl
      · exact ih _
    | wait =>
      rw [run_wait, run_wait, hf.busy, hf.stop]
      split
      · rw [hf.waitTo, thenRun_assoc, thenRun_assoc]
        congr 1
        funext u
        rw [thenRun_next, hf.due]
        split
        · rfl
        · exact ih _
      · exact ih _

theorem runFrom (items : List Item) (s : State) :
    Machine.runFrom items (f s) = thenRun (Machine.runFrom items s) fun t => .next (f t) := by
  simp only [Machine.runFrom, hf.stop, hf.spinOn, thenRun_assoc, thenRun_next, hf.due, hf.upc, hf.run]
  congr 1
  funext u
  split <;> rfl

/-- The same program run to a next state from the two states ends in the two next states. -/
theorem runFrom_next (items : List Item) (s t : State) (h : Machine.runFrom items s = .next t) :
    Machine.runFrom items (f s) = .next (f t) := by
  rw [hf.runFrom, h]
  rfl

end CommutesWithItems

/-! ## Host registers no command looks at -/

/-- The state with its host registers changed. -/
def State.mapRegs (g : HostRegs → HostRegs) (s : State) : State := { s with regs := g s.regs }

theorem State.mapRegs_clockFrom (g : HostRegs → HostRegs) (s : State) (m : Nat) :
    (s.mapRegs g).clockFrom m = (s.clockFrom m).map (State.mapRegs g) := by
  rw [State.clockFrom_eq, State.clockFrom_eq]
  by_cases h : max (s.mono.toNat + s.nextElapsed) m < timeLimit
  · rw [if_pos h]; exact if_pos h
  · rw [if_neg h]; exact if_neg h

theorem State.mapRegs_waitStart (g : HostRegs → HostRegs) (s : State) :
    (s.mapRegs g).waitStart = thenRun s.waitStart fun t => .next (t.mapRegs g) := by
  rw [State.waitStart_eq s _ rfl, State.waitStart_eq (s.mapRegs g) _ rfl]
  by_cases h : s.tl.sched.toNat + s.tl.timing.toNat < timeLimit ∧
      s.mono.toNat + s.nextElapsed < timeLimit ∧
      s.waitDeadline (s.mono.toNat + s.nextElapsed) < timeLimit
  · rw [if_pos h]; exact if_pos h
  · rw [if_neg h]; exact if_neg h

theorem State.mapRegs_spinRead (g : HostRegs → HostRegs) (s : State) :
    (s.mapRegs g).spinRead = thenRun s.spinRead fun t => .next (t.mapRegs g) := by
  have hspin : (s.mapRegs g).ctl.spin = s.ctl.spin := rfl
  unfold State.spinRead
  rw [hspin]
  cases s.ctl.spin with
  | none => rfl
  | some x =>
    simp only [State.mapRegs_clockFrom]
    cases s.clockFrom (if x.left = 0 then x.deadline.toNat else 0) with
    | none => rfl
    | some t =>
      show (if x.deadline.toNat ≤ t.mono.toNat then _ else _) = _
      split
      · next h => simp only [h, if_true]; rfl
      · next h => simp only [h, if_false]; rfl

/-- Commands see BUSY, RESULT and RDVAL alone of the host registers: a change of the others commutes with
all they do. -/
theorem mapRegs_commutes (g : HostRegs → HostRegs) (hbusy : ∀ r, (g r).busy = r.busy)
    (hfinish : ∀ r c, g { r with busy := false, result := c } = { g r with busy := false, result := c })
    (hrdval : ∀ r v, g { r with rdval := v } = { g r with rdval := v }) :
    CommutesWithItems (State.mapRegs g) where
  busy s := hbusy s.regs
  script _ := rfl
  steps _ := rfl
  upc _ := rfl
  spin _ := rfl
  loc l s := by
    cases l
    case needGpio =>
      unfold localEffect State.needGpio State.finish State.mapRegs
      cases s.env.avail.value Config.gpioAvail <;> simp [hfinish]
    case loadRdval =>
      exact congrArg (fun r => ({ s with regs := r } : State)) (hrdval s.regs s.ctl.acc).symm
    all_goals rfl
  op o s := by
    cases o
    case finish c =>
      exact congrArg (fun r => ({ s with regs := r, ctl := Control.idle } : State)) (hfinish s.regs c).symm
    all_goals rfl
  bump s := by
    unfold State.bumpUpc
    rw [show (s.mapRegs g).regs.busy = s.regs.busy from hbusy s.regs]
    split <;> rfl
  start := State.mapRegs_waitStart g
  read := State.mapRegs_spinRead g

/-- No item of a program reads or writes PTR (R36). -/
theorem withPtr_commutes (x : BitVec 16) : CommutesWithItems fun s => s.withPtr x :=
  mapRegs_commutes (fun r => { r with ptr := x }) (fun _ => rfl) (fun _ _ => rfl) (fun _ _ => rfl)

theorem programOf_withPtr (i : Instr) (s : State) (x : BitVec 16) :
    programOf i (s.withPtr x) = programOf i s := by
  cases i <;> rfl

/-- Settles O8: the port's own accesses one by one, and for the commands that no item touches PTR. -/
theorem bufferPortRules : Obligations.BufferPortRules := by
  refine ⟨fun s v rest hl hpos hle => ?_, fun s rest hl hpos hle => ?_,
    fun s v rest hl hb hpos hle => ?_, fun s v rest hl hb => ?_, fun s t x => ⟨fun i h => ?_, fun h => ?_⟩⟩
  · exact ⟨_, step_of_lands_write hl (by decide) (by decide) (by decide),
      State.writePtr_toNat _ v hpos hle, rfl⟩
  · have hstep := step_of_lands_read hl (by decide) (by decide)
    rw [State.hostRead_data] at hstep
    exact ⟨_, hstep, rfl, State.bumpPtr_toNat _ hpos hle, rfl⟩
  · have hstep := step_of_lands_write hl (by decide) (by decide) (by decide)
    rw [State.writeReg_data, State.writeBufData_idle (s.withScript rest) v hb] at hstep
    exact ⟨_, hstep, State.bufRead_bufWrite_same _ _ _,
      fun j hj => State.bufRead_bufWrite_other (s.withScript rest) _ j _ hj,
      State.bumpPtr_toNat _ hpos hle, rfl⟩
  · rw [step_of_lands_write hl (by decide) (by decide) (by decide),
      State.writeReg_data, State.writeBufData_busy (s.withScript rest) v hb]
    rfl
  · rw [exec_eq_runFrom] at h ⊢
    rw [show (s.withPtr x).begin = s.begin.withPtr x from rfl, programOf_withPtr]
    exact (withPtr_commutes x).runFrom_next _ _ _ h
  · exact (withPtr_commutes x).runFrom_next _ _ _ h

end Sys2Proof.Machine
end

section
/-! SUPPORT. What a running command leaves alone in the host's registers (10_state.md R33-R37), and what the
host's own accesses do to them. -/

namespace Sys2Proof.Machine

/-! ## The frame of a running command -/

/-- What a running command keeps: the host's side of the registers, the parameters and the script; an idle
sequencer stays idle, and RESULT is as before while BUSY = 1. -/
structure State.RunKeeps (s t : State) : Prop where
  cmd : t.regs.cmd = s.regs.cmd
  lost : t.regs.lost = s.regs.lost
  ptr : t.regs.ptr = s.regs.ptr
  staging : t.regs.staging = s.regs.staging
  params : t.params = s.params
  bufEpoch : t.bufEpoch = s.bufEpoch
  script : t.script = s.script
  reads : t.reads = s.reads
  idle : s.regs.busy = false → t.regs.busy = false
  result : t.regs.busy = true → t.regs.result = s.regs.result

theorem State.RunKeeps.rfl' (s : State) : s.RunKeeps s :=
  ⟨rfl, rfl, rfl, rfl, rfl, rfl, rfl, rfl, id, fun _ => rfl⟩

theorem State.RunKeeps.busy {s t : State} (h : s.RunKeeps t) (hb : t.regs.busy = true) :
    s.regs.busy = true := by
  by_contra hs
  simp [h.idle (by simpa using hs)] at hb

theorem State.RunKeeps.trans {s t u : State} (h : s.RunKeeps t) (k : t.RunKeeps u) : s.RunKeeps u :=
  ⟨k.cmd.trans h.cmd, k.lost.trans h.lost, k.ptr.trans h.ptr, k.staging.trans h.staging,
    k.params.trans h.params, k.bufEpoch.trans h.bufEpoch, k.script.trans h.script, k.reads.trans h.reads,
    fun hb => k.idle (h.idle hb), fun hb => (k.result hb).trans (h.result (k.busy hb))⟩

theorem State.SameButTime.runKeeps {s t : State} (h : s.SameButTime t) : s.RunKeeps t :=
  ⟨by rw [h.regs], by rw [h.regs], by rw [h.regs], by rw [h.regs], h.params, h.bufEpoch, h.script, h.reads,
    fun hb => by rw [h.regs, hb], fun _ => by rw [h.regs]⟩

theorem State.finish_runKeeps (s : State) (c : Result) : s.RunKeeps (s.finish c) :=
  ⟨rfl, rfl, rfl, rfl, rfl, rfl, rfl, rfl, fun _ => rfl, fun hb => by simp at hb⟩

/-- CREATE's sample of `gpio_avail` takes a free value, and ends the command or does nothing else (R133). -/
theorem State.needGpio_cases (s : State) : ∃ e, s.needGpio = { s with env := e } ∨
    s.needGpio = ({ s with env := e } : State).finish .deviceUnavailable := by
  unfold State.needGpio
  cases s.env.avail.value Config.gpioAvail
  · exact ⟨_, .inr rfl⟩
  · exact ⟨_, .inl rfl⟩

theorem localEffect_runKeeps (l : Local) (s : State) : s.RunKeeps (localEffect l s) := by
  cases l
  case needGpio =>
    have henv : ∀ e, s.RunKeeps { s with env := e } :=
      fun _ => ⟨rfl, rfl, rfl, rfl, rfl, rfl, rfl, rfl, id, fun _ => rfl⟩
    obtain ⟨e, he | he⟩ := s.needGpio_cases
    · rw [localEffect, he]; exact henv e
    · rw [localEffect, he]; exact (henv e).trans (State.finish_runKeeps _ _)
  all_goals exact ⟨rfl, rfl, rfl, rfl, rfl, rfl, rfl, rfl, id, fun _ => rfl⟩

theorem opEffect_runKeeps (o : Op) (s : State) : s.RunKeeps (opEffect o s) := by
  cases o
  case finish c => exact State.finish_runKeeps s c
  all_goals exact ⟨rfl, rfl, rfl, rfl, rfl, rfl, rfl, rfl, id, fun _ => rfl⟩

theorem State.resume_runKeeps (s t : State) (h : s.resume = .next t) : s.RunKeeps t :=
  runFrom_rel State.RunKeeps .rfl' (fun _ _ _ => .trans) _ (fun l _ => localEffect_runKeeps l)
    (fun o _ => opEffect_runKeeps o) (fun s => s.bumpUpc_same.runKeeps)
    (fun s t h => (s.waitStart_same t h).runKeeps) (fun s t h => (s.spinRead_same t h).runKeeps) s t h

/-! ## The registers after a host access -/

theorem State.hostRead_regs (s : State) (off : Nat) :
    ∃ x, (s.hostRead off).regs = { s.regs with ptr := x } := by
  by_cases h : off = 0x10
  · subst h; exact ⟨_, rfl⟩
  · rw [State.hostRead_other s off h]; exact ⟨s.regs.ptr, rfl⟩

/-- A host write writes PTR and the staging registers, or it is a dropped write of BUF_DATA (R36-R39). -/
theorem State.writeReg_regs (s : State) (off : Nat) (v : Word) :
    (∃ x r, (s.writeReg off v).regs = { s.regs with ptr := x, staging := r }) ∨
    (off = 0x10 ∧ s.regs.busy = true ∧ (s.writeReg off v).regs = { s.regs with lost := true }) := by
  rcases s.writeReg_cases off v with h | ⟨rfl, h⟩ | ⟨r, h⟩ | h
  · exact .inl ⟨_, s.regs.staging, by rw [h]; rfl⟩
  · cases hb : s.regs.busy with
    | true => exact .inr ⟨rfl, rfl, by rw [h, State.writeBufData_busy s v hb]; rfl⟩
    | false => exact .inl ⟨_, s.regs.staging, by rw [h, State.writeBufData_idle s v hb]; rfl⟩
  · exact .inl ⟨s.regs.ptr, r, by rw [h]; rfl⟩
  · exact .inl ⟨s.regs.ptr, s.regs.staging, by rw [h]⟩

theorem State.idleTick_regs (s t : State) (h : s.idleTick = .next t) : t.regs = s.regs := by
  rw [(State.idleTick_eq_next s t h).2]

/-! ## CMD, LOST and RESULT -/

/-- But for reset, CMD changes only where a write of that word is accepted (R33). -/
theorem step_cmd (s t : State) (h : step s = .next t) (hr : ∀ rest, ¬ s.lands .reset rest) :
    t.regs.cmd = s.regs.cmd ∨ (s.regs.busy = false ∧ ∃ rest, s.lands (.write 32 0 t.regs.cmd) rest) := by
  cases step_moves s t h with
  | reset rest hl _ => exact absurd hl (hr rest)
  | read off rest _ ht =>
    obtain ⟨x, hx⟩ := (s.withScript rest).hostRead_regs off
    exact .inl (by rw [ht, hx]; rfl)
  | dropped w rest _ _ ht => exact .inl (by rw [ht]; rfl)
  | accepted w rest hl hb ht =>
    have hcmd : t.regs.cmd = w := (State.resume_runKeeps _ _ ht).cmd
    exact .inr ⟨hb, rest, by rw [hcmd]; exact hl⟩
  | written off v rest _ ht =>
    rcases (s.withScript rest).writeReg_regs off v with ⟨x, r, hx⟩ | ⟨_, _, hx⟩ <;>
      exact .inl (by rw [ht, hx]; rfl)
  | resumed _ ht => exact .inl (State.resume_runKeeps _ _ ht).cmd
  | idle _ ht => exact .inl (by rw [State.idleTick_regs s t ht])

/-- Settles O6: the step of a CMD write that lands, a read of CMD, and what else could change CMD. -/
theorem cmdWritesAreAcceptedOrDropped : Obligations.CmdWritesAreAcceptedOrDropped := by
  refine ⟨fun s w rest hl => ⟨fun hb t ht => ⟨fun i hd => ?_, fun e hd => ?_⟩, fun hb => ?_⟩,
    fun s rest hl => ?_, step_cmd⟩
  · rw [ht, step_of_lands_accepted hl hb, State.resume_accept_of_decode _ w i hd]
    rfl
  · rw [ht, step_of_lands_accepted hl hb, State.resume_accept_of_reject _ w e hd]
    rfl
  · rw [step_of_lands_dropped hl hb]
    rfl
  · rw [step_of_lands_read hl (by decide) (by decide), State.hostRead_other _ _ (by decide)]
    rfl

/-- Settles O16: a running command keeps LOST, and keeps RESULT while BUSY = 1; of the host's moves only a
dropped write sets LOST. -/
theorem statusBitsChangeOnlyAsStated : Obligations.StatusBitsChangeOnlyAsStated := by
  intro s t h hr
  cases step_moves s t h with
  | reset rest hl _ => exact absurd hl (hr rest)
  | read off rest _ ht =>
    obtain ⟨x, hx⟩ := (s.withScript rest).hostRead_regs off
    rw [ht, hx]
    exact ⟨.inl, .inl, fun hne => absurd rfl hne⟩
  | dropped w rest hl hb ht =>
    rw [ht]
    exact ⟨fun _ => .inl rfl, fun _ => .inr ⟨hb, w, rest, .inl hl⟩, fun hne => absurd rfl hne⟩
  | accepted w rest hl hb ht =>
    have k := State.resume_runKeeps _ _ ht
    refine ⟨fun _ => .inr ⟨hb, w, rest, hl⟩, fun hlost => ?_, fun hne => ⟨?_, .inr ⟨w, rest, hl⟩⟩⟩
    · rw [k.lost] at hlost; cases hlost
    · exact Bool.eq_false_iff.2 fun hbt => hne (k.result hbt)
  | written off v rest hl ht =>
    rcases (s.withScript rest).writeReg_regs off v with ⟨x, r, hx⟩ | ⟨rfl, hb, hx⟩
    · rw [ht, hx]
      exact ⟨.inl, .inl, fun hne => absurd rfl hne⟩
    · rw [ht, hx]
      exact ⟨fun _ => .inl rfl, fun _ => .inr ⟨hb, v, rest, .inr hl⟩, fun hne => absurd rfl hne⟩
  | resumed hb ht =>
    have k := State.resume_runKeeps _ _ ht
    rw [k.lost]
    exact ⟨.inl, .inl, fun hne => ⟨Bool.eq_false_iff.2 fun hbt => hne (k.result hbt), .inl hb⟩⟩
  | idle _ ht =>
    rw [State.idleTick_regs s t ht]
    exact ⟨.inl, .inl, fun hne => absurd rfl hne⟩

end Sys2Proof.Machine
end

section
/-! SUPPORT. What items the seven programs are made of: the masks they name, and which of them write a slot,
BUF or RDVAL. -/

namespace Sys2Proof.Machine

open Sys2Proof.Config (Params)

/-! ## Usable masks (20_memory.md R75) -/

theorem maskUsable_or {x y : Word} (hx : maskUsable x = true) (hy : maskUsable y = true) :
    maskUsable (x ||| y) = true := by
  simp only [maskUsable, decide_eq_true_eq, BitVec.toNat_or] at *
  exact Nat.or_lt_two_pow hx hy

theorem maskUsable_pinBit (p : Pin) : maskUsable (pinBit p) = true := by
  cases p with
  | none => rfl
  | some i => revert i; decide

/-- Both masks of a pair name usable pins only. -/
def Masks.Usable (m : Masks) : Prop := maskUsable m.c = true ∧ maskUsable m.s = true

theorem Masks.usable_zero : Masks.Usable ⟨0, 0⟩ := ⟨rfl, rfl⟩

theorem Masks.Usable.or {x y : Masks} (hx : x.Usable) (hy : y.Usable) : (x.or y).Usable :=
  ⟨maskUsable_or hx.1 hy.1, maskUsable_or hx.2 hy.2⟩

theorem lvlMask_usable (p : Pin) (l : Bool) : (lvlMask p l).Usable := by
  cases l
  · exact ⟨maskUsable_pinBit p, rfl⟩
  · exact ⟨rfl, maskUsable_pinBit p⟩

theorem Slot.dataMask_usable (q : Slot) : maskUsable q.dataMask = true :=
  List.foldlRecOn (motive := fun m => maskUsable m = true) _ _ rfl
    fun _ h _ _ => maskUsable_or h (maskUsable_pinBit _)

theorem Slot.ctrlMask_usable (q : Slot) : maskUsable q.ctrlMask = true :=
  maskUsable_or (maskUsable_or (maskUsable_pinBit _) (maskUsable_pinBit _)) (maskUsable_pinBit _)

theorem Slot.dataMasks_usable (q : Slot) (g : Byte) : (q.dataMasks g).Usable :=
  List.foldlRecOn (motive := Masks.Usable) _ _ Masks.usable_zero fun _ h _ _ => h.or (lvlMask_usable _ _)

theorem Slot.assertMasks_usable (q : Slot) (g : Byte) : (q.assertMasks g).Usable :=
  (q.dataMasks_usable g).or (lvlMask_usable _ _)

theorem Slot.deassertMasks_usable (q : Slot) (g : Byte) : (q.deassertMasks g).Usable :=
  (q.dataMasks_usable g).or (lvlMask_usable _ _)

theorem Slot.writeSetup_usable (par : Params) (q : Slot) (kind : Kind) : (q.writeSetup par kind).Usable :=
  (lvlMask_usable _ _).or (lvlMask_usable _ _)

theorem Slot.readSetup_usable (par : Params) (q : Slot) (kind : Kind) : (q.readSetup par kind).Usable := by
  refine (lvlMask_usable _ _).or ?_
  cases q.variant
  · exact Masks.usable_zero
  · exact lvlMask_usable _ _

/-! ## The items of a program -/

/-- An item that the program of the decoded word `c` may hold: constant masks name usable pins, a slot is
latched or invalidated by its CREATE or RELEASE, BUF is written inside its size, RDVAL by RDREG. -/
def Item.Fits (par : Params) (c : Except Reject Instr) : Item → Prop
  | .loc (.latch p q) => c = .ok (.create p) ∧ q.widthOk = true
  | .loc (.invalidate p) => c = .ok (.release p)
  | .loc (.masks m) => m.Usable
  | .loc (.sinkBuf i) => i < par.bufSize
  | .loc .loadRdval => ∃ p, c = .ok (.rdreg p)
  | .op (.mode m _) => maskUsable m = true
  | .op (.clr m) => maskUsable m = true
  | .op (.set m) => maskUsable m = true
  | _ => True

section
variable (par : Params) (c : Except Reject Instr)

theorem finishOnly_fits (r : Result) : ∀ x ∈ finishOnly r, x.Fits par c := by
  simp [finishOnly, Item.Fits]

theorem withSlot_fits (p : Nat) (s : State) (items : List Item) (h : ∀ x ∈ items, x.Fits par c) :
    ∀ x ∈ withSlot p s items, x.Fits par c := by
  unfold withSlot
  split
  · exact finishOnly_fits par c _
  · exact h

theorem driveItems_fits (p : Pin) (l : Bool) : ∀ x ∈ driveItems p l, x.Fits par c := by
  cases p with
  | none => simp [driveItems]
  | some i => cases l <;> simp [driveItems, Item.Fits, maskUsable_pinBit]

theorem applyOps_fits (o : Order) : ∀ x ∈ applyOps o, x.Fits par c := by
  cases o <;> simp [applyOps, Item.Fits]

theorem applyItems_fits (m : Masks) (o : Order) (h : m.Usable) : ∀ x ∈ applyItems m o, x.Fits par c :=
  List.forall_mem_cons.2 ⟨h, applyOps_fits par c o⟩

theorem createItems_fits (par' : Params) (p : Nat) (q : Slot) (hc : c = .ok (.create p))
    (hq : q.widthOk = true) : ∀ x ∈ createItems par' p q, x.Fits par c := by
  simp only [createItems, List.forall_mem_append]
  refine ⟨⟨⟨?_, driveItems_fits par c _ _⟩, driveItems_fits par c _ _⟩, ?_⟩
  · simp [Item.Fits, hc, hq]
  · simp [Item.Fits, Slot.ctrlMask_usable, Slot.dataMask_usable]

theorem writeGroup_fits (q : Slot) (k : Nat) : ∀ x ∈ writeGroup par q k, x.Fits par c := by
  simp only [writeGroup, List.forall_mem_append]
  refine ⟨⟨⟨⟨?_, applyOps_fits par c _⟩, ?_⟩, applyOps_fits par c _⟩, ?_⟩ <;> simp [Item.Fits]

theorem writeItems_fits (q : Slot) (kind : Kind) (n : Nat) (src : ByteSource) :
    ∀ x ∈ writeItems par q kind n src, x.Fits par c := by
  simp only [writeItems, List.forall_mem_append, List.forall_mem_flatMap]
  refine ⟨⟨⟨⟨⟨⟨?_, applyOps_fits par c _⟩, ?_⟩, fun i _ => ?_⟩, ?_⟩,
    applyItems_fits par c _ _ (lvlMask_usable _ _)⟩, ?_⟩
  · simp [Item.Fits, Slot.writeSetup_usable, Slot.dataMask_usable]
  · simp [Item.Fits]
  · exact List.forall_mem_cons.2 ⟨trivial, List.forall_mem_flatMap.2 fun k _ => writeGroup_fits par c q k⟩
  · simp [Item.Fits, Slot.dataMask_usable]
  · simp [Item.Fits]

theorem readGroupItems_fits (q : Slot) (k : Nat) : ∀ x ∈ readGroupItems par q k, x.Fits par c := by
  simp only [readGroupItems, List.forall_mem_append]
  refine ⟨⟨⟨⟨?_, applyItems_fits par c _ _ (lvlMask_usable _ _)⟩, ?_⟩,
    applyItems_fits par c _ _ (lvlMask_usable _ _)⟩, ?_⟩ <;> simp [Item.Fits]

theorem sinkItems_fits (snk : Sink) (i : Nat) (h : snk = .buffer → i < par.bufSize) :
    ∀ x ∈ sinkItems snk i, x.Fits par c := by
  cases snk with
  | buffer => simpa [sinkItems, Item.Fits] using h
  | rdval => simp [sinkItems]

/-- `READ` up to its last lines (R220). -/
def readFront (q : Slot) (kind : Kind) (n : Nat) (snk : Sink) : List Item :=
  readDirection par q
    ++ .wait :: applyItems (q.readSetup par kind) q.assertOrder
    ++ [.op (.adv q.tSetup)]
    ++ (List.range n).flatMap (readUnit par q snk)
    ++ driveItems q.rwrd (q.hostLvl par)

theorem readItems_eq (q : Slot) (kind : Kind) (n : Nat) (snk : Sink) :
    readItems par q kind n snk = readFront par q kind n snk ++ readEnd snk := rfl

theorem readDirection_fits (q : Slot) : ∀ x ∈ readDirection par q, x.Fits par c := by
  unfold readDirection
  cases q.variant
  · exact driveItems_fits par c _ _
  · simp

theorem readFront_fits (q : Slot) (kind : Kind) (n : Nat) (snk : Sink)
    (hn : snk = .buffer → n ≤ par.bufSize) : ∀ x ∈ readFront par q kind n snk, x.Fits par c := by
  simp only [readFront, List.forall_mem_append, List.forall_mem_flatMap]
  refine ⟨⟨⟨⟨readDirection_fits par c q, ?_⟩, ?_⟩, fun i hi => ?_⟩, driveItems_fits par c _ _⟩
  · exact List.forall_mem_cons.2 ⟨trivial, applyItems_fits par c _ _ (q.readSetup_usable par kind)⟩
  · simp [Item.Fits]
  · have hlt : i < n := List.mem_range.1 hi
    exact List.forall_mem_append.2
      ⟨List.forall_mem_cons.2
        ⟨trivial, List.forall_mem_flatMap.2 fun k _ => readGroupItems_fits par c q k⟩,
        sinkItems_fits par c snk i fun hs => lt_of_lt_of_le hlt (hn hs)⟩

theorem readItems_fits (q : Slot) (kind : Kind) (n : Nat) (snk : Sink)
    (hn : snk = .buffer → n ≤ par.bufSize) (hc : snk = .rdval → ∃ p, c = .ok (.rdreg p)) :
    ∀ x ∈ readItems par q kind n snk, x.Fits par c := by
  rw [readItems_eq, List.forall_mem_append]
  refine ⟨readFront_fits par c q kind n snk hn, ?_⟩
  cases snk with
  | buffer => simp [readEnd, Item.Fits]
  | rdval => simpa [readEnd, Item.Fits] using hc

end

/-- CREATE's width is the one its pins give (R45). -/
theorem Staging.profile_widthOk (r : Staging) : r.profile.widthOk = true := by
  simp [Slot.widthOk, Staging.profile]

/-- Every program holds only what its command may do. -/
theorem programOf_fits (i : Instr) (s : State) : ∀ x ∈ programOf i s, x.Fits s.params (.ok i) := by
  cases i with
  | nop => exact finishOnly_fits _ _ _
  | create p =>
    exact withSlot_fits _ _ _ _ _ (createItems_fits _ _ _ _ _ rfl (Staging.profile_widthOk _))
  | release p =>
    refine withSlot_fits _ _ _ _ _ ?_
    split
    · simp [Item.Fits]
    · exact finishOnly_fits _ _ _
  | wrdata p n =>
    refine withSlot_fits _ _ _ _ _ ?_
    split
    · split
      · exact finishOnly_fits _ _ _
      · exact writeItems_fits _ _ _ _ _ _
    · exact finishOnly_fits _ _ _
  | wrcmd p imm =>
    refine withSlot_fits _ _ _ _ _ ?_
    split
    · exact writeItems_fits _ _ _ _ _ _
    · exact finishOnly_fits _ _ _
  | rddata p n =>
    refine withSlot_fits _ _ _ _ _ ?_
    split
    · split
      · exact finishOnly_fits _ _ _
      · split
        · exact finishOnly_fits _ _ _
        · next hn => exact readItems_fits _ _ _ _ _ _ (fun _ => not_lt.1 hn) (fun h => by cases h)
    · exact finishOnly_fits _ _ _
  | rdreg p =>
    refine withSlot_fits _ _ _ _ _ ?_
    split
    · split
      · exact finishOnly_fits _ _ _
      · exact readItems_fits _ _ _ _ _ _ (fun h => by cases h) (fun _ => ⟨p, rfl⟩)
    · exact finishOnly_fits _ _ _

theorem State.running_fits (s : State) : ∀ x ∈ s.running, x.Fits s.params (decode s.regs.cmd) := by
  cases hd : decode s.regs.cmd with
  | ok i => rw [State.running_of_decode s i hd]; exact programOf_fits i s
  | error e => rw [State.running_of_reject s e hd]; exact finishOnly_fits _ _ _

/-! ## A program in two parts -/

theorem run_append (xs ys : List Item) (s t : State) (h : run (xs ++ ys) s = .next t) :
    run xs s = .next t ∨ ∃ u, run xs s = .next u ∧ run ys u = .next t := by
  induction xs generalizing s with
  | nil => exact .inr ⟨s, rfl, h⟩
  | cons x r ih =>
    rw [List.cons_append] at h
    cases x with
    | loc l => rw [run_loc] at h ⊢; exact ih _ h
    | op o =>
      rw [run_op] at h ⊢
      split
      · next hd => rw [if_pos hd] at h; exact .inl h
      · next hd => rw [if_neg hd] at h; exact ih _ h
    | wait =>
      rw [run_wait] at h ⊢
      split
      · next hb =>
        rw [if_pos hb] at h
        obtain ⟨u, hu, h⟩ := thenRun_eq_next _ _ _ h
        rw [hu, thenRun_next]
        split
        · next hd => rw [if_pos hd] at h; exact .inl h
        · next hd => rw [if_neg hd] at h; exact ih _ h
      · next hb => rw [if_neg hb] at h; exact ih _ h

theorem dropOps_nil (n : Nat) : dropOps n [] = [] := by cases n <;> rfl

theorem dropOps_append (n : Nat) (xs ys : List Item) :
    dropOps n (xs ++ ys) = dropOps n xs ++ dropOps (n - countOps xs) ys := by
  induction xs generalizing n with
  | nil => simp [dropOps_nil, countOps]
  | cons x r ih =>
    cases n with
    | zero => simp
    | succ n =>
      cases x with
      | loc l => simp only [List.cons_append, dropOps, ih, countOps]
      | op o => simp only [List.cons_append, dropOps, ih, countOps, Nat.add_sub_add_right]
      | wait => simp only [List.cons_append, dropOps, ih, countOps, Nat.add_sub_add_right]

end Sys2Proof.Machine
end

section
/-! SUPPORT. Which commands write a slot (10_state.md R44) and which writes RDVAL (R35). -/

namespace Sys2Proof.Machine

/-! ## Slots -/

theorem State.slotAt_congr (s t : State) (h : t.slots = s.slots) (j : Nat) : t.slotAt j = s.slotAt j := by
  simp [State.slotAt, h]

theorem State.slotAt_setSlot_other (s : State) (p j : Nat) (q : Slot) (h : p ≠ j) :
    (s.setSlot p q).slotAt j = s.slotAt j := by
  simp [State.slotAt, State.setSlot, List.getElem?_set_ne h]

/-- RELEASE of a slot that is not there changes nothing (R138). -/
theorem State.slotAt_invalidate_same (s : State) (p : Nat) :
    (s.invalidate p).slotAt p = s.slotAt p ∨
      (s.invalidate p).slotAt p = { s.slotAt p with valid := false } := by
  by_cases hp : p < s.slots.length
  · right
    simp [State.invalidate, State.setSlot, State.slotAt, hp]
  · left
    simp [State.invalidate, State.setSlot, State.slotAt, hp]

/-- The command `c` may do this to slot `j`: nothing, or CREATE it, or RELEASE it, which clears `valid`. -/
def State.SlotKept (c : Except Reject Instr) (j : Nat) (s t : State) : Prop :=
  t.slotAt j = s.slotAt j ∨ c = .ok (.create j) ∨
    (c = .ok (.release j) ∧ t.slotAt j = { s.slotAt j with valid := false })

section
variable {c : Except Reject Instr} {j : Nat} {s t u : State}

theorem State.SlotKept.of_slots (h : t.slots = s.slots) : State.SlotKept c j s t :=
  .inl (State.slotAt_congr s t h j)

theorem State.SlotKept.trans (h : State.SlotKept c j s t) (k : State.SlotKept c j t u) :
    State.SlotKept c j s u := by
  rcases h with h | h | ⟨hc, h⟩
  · rw [State.SlotKept, h] at k; exact k
  · exact .inr (.inl h)
  · rcases k with k | k | ⟨_, k⟩
    · exact .inr (.inr ⟨hc, k.trans h⟩)
    · exact .inr (.inl k)
    · exact .inr (.inr ⟨hc, by rw [k, h]⟩)

end

theorem localEffect_slotKept (par : Config.Params) (c : Except Reject Instr) (j : Nat) (l : Local) (s : State)
    (h : (Item.loc l).Fits par c) : State.SlotKept c j s (localEffect l s) := by
  cases l
  case needGpio =>
    obtain ⟨e, he | he⟩ := s.needGpio_cases <;> exact .of_slots (by simp [localEffect, he])
  case latch p q =>
    by_cases hp : p = j
    · subst hp; exact .inr (.inl h.1)
    · exact .inl (s.slotAt_setSlot_other p j q hp)
  case invalidate p =>
    by_cases hp : p = j
    · subst hp
      rcases s.slotAt_invalidate_same p with hs | hs
      · exact .inl hs
      · exact .inr (.inr ⟨h, hs⟩)
    · exact .inl (s.slotAt_setSlot_other p j _ hp)
  all_goals exact .of_slots rfl

theorem opEffect_slots (o : Op) (s : State) : (opEffect o s).slots = s.slots := by
  cases o <;> rfl

theorem State.resume_slotKept (s t : State) (j : Nat) (h : s.resume = .next t) :
    State.SlotKept (decode s.regs.cmd) j s t :=
  runFrom_rel (State.SlotKept (decode s.regs.cmd) j) (fun _ => .of_slots rfl) (fun _ _ _ => .trans) _
    (fun l hl u => localEffect_slotKept s.params _ j l u (s.running_fits _ hl))
    (fun o _ u => .of_slots (opEffect_slots o u)) (fun u => .of_slots u.bumpUpc_same.slots)
    (fun u v hv => .of_slots (u.waitStart_same v hv).slots)
    (fun u v hv => .of_slots (u.spinRead_same v hv).slots) s t h

theorem State.hostRead_slots (s : State) (off : Nat) : (s.hostRead off).slots = s.slots := by
  unfold State.hostRead
  split <;> rfl

theorem State.writeBufData_slots (s : State) (v : Word) : (s.writeBufData v).slots = s.slots := by
  unfold State.writeBufData
  split <;> rfl

theorem State.writeReg_slots (s : State) (off : Nat) (v : Word) : (s.writeReg off v).slots = s.slots := by
  rcases s.writeReg_cases off v with h | ⟨_, h⟩ | ⟨r, h⟩ | h
  · rw [h]; rfl
  · rw [h, State.writeBufData_slots]
  · rw [h]; rfl
  · rw [h]

/-- Settles O22: no host move but reset writes a slot, and of the programs' lines only CREATE's and
RELEASE's do. -/
theorem slotsChangeOnlyByCreateReleaseReset : Obligations.SlotsChangeOnlyByCreateReleaseReset := by
  intro s t j h hne
  have hsame : ¬ t.slots = s.slots := fun hs => hne (State.slotAt_congr s t hs j)
  cases step_moves s t h with
  | reset rest hl _ => exact .inl ⟨rest, hl⟩
  | read off rest _ ht => exact absurd (by rw [ht, State.hostRead_slots]; rfl) hsame
  | dropped w rest _ _ ht => exact absurd (by rw [ht]; rfl) hsame
  | accepted w rest _ _ ht =>
    rw [(State.resume_runKeeps _ _ ht).cmd]
    exact .inr ((State.resume_slotKept _ t j ht).resolve_left hne)
  | written off v rest _ ht => exact absurd (by rw [ht, State.writeReg_slots]; rfl) hsame
  | resumed _ ht =>
    rw [(State.resume_runKeeps _ _ ht).cmd]
    exact .inr ((State.resume_slotKept _ t j ht).resolve_left hne)
  | idle _ ht => exact absurd (by rw [(State.idleTick_eq_next s t ht).2]) hsame

/-! ## RDVAL -/

theorem localEffect_rdval (l : Local) (s : State) (h : l ≠ .loadRdval) :
    (localEffect l s).regs.rdval = s.regs.rdval := by
  cases l
  case needGpio => obtain ⟨e, he | he⟩ := s.needGpio_cases <;> simp [localEffect, he]
  case loadRdval => exact absurd rfl h
  all_goals rfl

theorem opEffect_rdval (o : Op) (s : State) : (opEffect o s).regs.rdval = s.regs.rdval := by
  cases o <;> rfl

/-- A program without RDREG's line leaves RDVAL alone. -/
theorem run_rdval (items : List Item) (hi : Item.loc .loadRdval ∉ items) (s t : State)
    (h : run items s = .next t) : t.regs.rdval = s.regs.rdval :=
  run_rel (fun s t => t.regs.rdval = s.regs.rdval) (fun _ => rfl) (fun _ _ _ h k => k.trans h) items
    (fun l hl s => localEffect_rdval l s fun he => hi (he ▸ hl)) (fun o _ s => opEffect_rdval o s)
    (fun s => by rw [s.bumpUpc_same.regs]) (fun s t h => by rw [(s.waitStart_same t h).regs])
    (fun s t h => by rw [(s.spinRead_same t h).regs]) s t h

/-- An idle sequencer runs no line (R13). -/
theorem run_idle (items : List Item) (s : State) (hb : s.regs.busy = false) : run items s = .next s := by
  induction items with
  | nil => rfl
  | cons x r ih =>
    cases x with
    | loc l => rw [run_loc, State.whileBusy_idle s _ hb, ih]
    | op o => rw [run_op, State.whileBusy_idle s _ hb, State.not_due_of_idle s hb, ih]; rfl
    | wait => rw [run_wait, hb, ih]; rfl

/-- RDREG's last lines write RDVAL and finish with OK in one step (R229). -/
theorem run_readEnd_rdval (s : State) (hb : s.regs.busy = true) :
    run (readEnd .rdval) s = .next (s.loadRdval.finish .ok) := by
  have hidle : (s.loadRdval.finish .ok).regs.busy = false := rfl
  have hop : s.loadRdval.whileBusy (fun u => (opEffect (.finish .ok) u).bumpUpc) = s.loadRdval.finish .ok := by
    rw [State.whileBusy_busy s.loadRdval _ hb]
    simp [opEffect, State.bumpUpc]
  rw [readEnd, run_loc, State.whileBusy_busy s _ hb, localEffect, run_op, hop,
    State.not_due_of_idle _ hidle]
  rfl

/-- What is left of a program that ends in RDREG's last lines writes RDVAL only where it finishes with OK. -/
theorem run_dropOps_rdval (n : Nat) (xs : List Item) (hx : Item.loc .loadRdval ∉ xs) (s t : State)
    (h : run (dropOps n (xs ++ readEnd .rdval)) s = .next t) :
    t.regs.rdval = s.regs.rdval ∨ t.doneOk := by
  have hfront : Item.loc .loadRdval ∉ dropOps n xs := fun hm => hx (mem_dropOps _ _ _ hm)
  rw [dropOps_append] at h
  rcases run_append _ _ _ _ h with h | ⟨u, hu, h⟩
  · exact .inl (run_rdval _ hfront _ _ h)
  · have hrd := run_rdval _ hfront _ _ hu
    generalize n - countOps xs = m at h
    cases m with
    | zero =>
      rw [dropOps_zero] at h
      cases hb : u.regs.busy with
      | false => rw [run_idle _ u hb] at h; cases h; exact .inl hrd
      | true => rw [run_readEnd_rdval u hb] at h; cases h; exact .inr ⟨rfl, rfl⟩
    | succ m =>
      have hnil : dropOps (m + 1) (readEnd .rdval) = [] := dropOps_nil m
      rw [hnil] at h
      cases h; exact .inl hrd

/-- A program that fits a word other than RDREG's holds no line that loads RDVAL. -/
theorem loadRdval_not_mem (par : Config.Params) (c : Except Reject Instr) (items : List Item)
    (h : ∀ x ∈ items, x.Fits par c) (hc : ∀ p, c ≠ .ok (.rdreg p)) : Item.loc .loadRdval ∉ items :=
  fun hm => by
    obtain ⟨p, hp⟩ := h _ hm
    exact hc p hp

/-- A program holds no line that loads RDVAL, or it is RDREG's, which ends in such a line and its finish. -/
theorem State.running_rdval (s : State) : Item.loc .loadRdval ∉ s.running ∨
    ((∃ p, decode s.regs.cmd = .ok (.rdreg p)) ∧
      ∃ xs, Item.loc .loadRdval ∉ xs ∧ s.running = xs ++ readEnd .rdval) := by
  by_cases hp : ∃ p, decode s.regs.cmd = .ok (.rdreg p)
  · have hp' := hp
    obtain ⟨p, hd⟩ := hp'
    have hfinish : ∀ r, Item.loc .loadRdval ∉ finishOnly r := by simp [finishOnly]
    rw [State.running_of_decode s _ hd]
    simp only [programOf, rdregProgram, withSlot]
    split
    · exact .inl (hfinish _)
    · split
      · split
        · exact .inl (hfinish _)
        · exact .inr ⟨hp, _, loadRdval_not_mem s.params (.ok .nop) _
            (readFront_fits _ _ _ _ _ _ fun h => by cases h) (fun p h => by cases h), readItems_eq ..⟩
      · exact .inl (hfinish _)
  · exact .inl (loadRdval_not_mem _ _ _ s.running_fits fun p h => hp ⟨p, h⟩)

theorem State.resume_rdval (s t : State) (h : s.resume = .next t) : t.regs.rdval = s.regs.rdval ∨
    (t.doneOk ∧ ∃ p, decode s.regs.cmd = .ok (.rdreg p)) := by
  obtain ⟨u, hu, h⟩ := thenRun_eq_next _ _ _ h
  have hrd : u.regs.rdval = s.regs.rdval := by rw [(State.spinOn_same _ _ _ hu).regs]
  rw [← hrd]
  split at h
  · cases h; exact .inl rfl
  · rcases s.running_rdval with hno | ⟨hp, xs, hxs, he⟩
    · exact .inl (run_rdval _ (fun hm => hno (mem_dropOps _ _ _ hm)) _ _ h)
    · rw [he] at h
      exact (run_dropOps_rdval _ xs hxs u t h).imp_right fun hd => ⟨hd, hp⟩

/-- Settles O17: of the host's moves none but reset writes RDVAL, and of the programs only RDREG's last
lines do, in the step that finishes it. -/
theorem rdvalIsWrittenByRdregAlone : Obligations.RdvalIsWrittenByRdregAlone := by
  intro s t h hr hne
  cases step_moves s t h with
  | reset rest hl _ => exact absurd hl (hr rest)
  | read off rest _ ht =>
    obtain ⟨x, hx⟩ := (s.withScript rest).hostRead_regs off
    exact absurd (by rw [ht, hx]; rfl) hne
  | dropped w rest _ _ ht => exact absurd (by rw [ht]; rfl) hne
  | accepted w rest _ _ ht =>
    rw [(State.resume_runKeeps _ _ ht).cmd]
    exact (State.resume_rdval _ t ht).resolve_left hne
  | written off v rest _ ht =>
    rcases (s.withScript rest).writeReg_regs off v with ⟨x, r, hx⟩ | ⟨_, _, hx⟩ <;>
      exact absurd (by rw [ht, hx]; rfl) hne
  | resumed _ ht =>
    rw [(State.resume_runKeeps _ _ ht).cmd]
    exact (State.resume_rdval _ t ht).resolve_left hne
  | idle _ ht => exact absurd (by rw [State.idleTick_regs s t ht]) hne

end Sys2Proof.Machine
end

section
/-! SUPPORT. Time never runs back (10_state.md R48, R49, 41_timeline.md R166-R172), and where a spin
stands. -/

namespace Sys2Proof.Machine

/-- A spin has not reached its deadline, and that deadline is not before `tl.sched` (R171). -/
def State.SpinAhead (s : State) : Prop :=
  ∀ x, s.ctl.spin = some x → s.tl.sched.toNat ≤ x.deadline.toNat ∧ s.mono.toNat < x.deadline.toNat

/-- `spinOk` says that a spin is short of its deadline and that a command is running. -/
theorem State.spinOk_iff (s : State) :
    s.spinOk = true ↔ s.SpinAhead ∧ (s.ctl.spin ≠ none → s.regs.busy = true) := by
  unfold State.spinOk State.SpinAhead
  cases s.ctl.spin <;> simp [and_comm, and_assoc]

/-- What a step of a command may do to time: nothing runs back, a spin stays short of its deadline, and
`tl.sched` does not overtake the timebase. -/
structure State.Forward (s t : State) : Prop where
  sched : s.tl.sched.toNat ≤ t.tl.sched.toNat
  mono : s.mono.toNat ≤ t.mono.toNat
  ahead : t.SpinAhead
  le : s.tl.sched.toNat ≤ s.mono.toNat → t.tl.sched.toNat ≤ t.mono.toNat

theorem State.Forward.of_same {s t : State} (hs : s.SpinAhead) (hsched : t.tl.sched = s.tl.sched)
    (hmono : t.mono = s.mono) (hspin : t.ctl.spin = s.ctl.spin ∨ t.ctl.spin = none) : s.Forward t := by
  refine ⟨by rw [hsched], by rw [hmono], fun x hx => ?_, fun h => by rw [hsched, hmono]; exact h⟩
  rcases hspin with h | h
  · rw [hsched, hmono]; exact hs x (h ▸ hx)
  · rw [h] at hx; cases hx

theorem State.Forward.trans {s t u : State} (h : s.Forward t) (k : t.Forward u) : s.Forward u :=
  ⟨h.sched.trans k.sched, h.mono.trans k.mono, k.ahead, fun hle => k.le (h.le hle)⟩

/-! ## One item -/

theorem localEffect_forward (l : Local) (s : State) (hs : s.SpinAhead) : s.Forward (localEffect l s) := by
  cases l
  case needGpio =>
    obtain ⟨e, he | he⟩ := s.needGpio_cases
    · rw [localEffect, he]; exact .of_same hs rfl rfl (.inl rfl)
    · rw [localEffect, he]; exact .of_same hs rfl rfl (.inr rfl)
  all_goals exact .of_same hs rfl rfl (.inl rfl)

theorem opEffect_forward (o : Op) (s : State) (hs : s.SpinAhead) : s.Forward (opEffect o s) := by
  cases o
  case finish c => exact .of_same hs rfl rfl (.inr rfl)
  all_goals exact .of_same hs rfl rfl (.inl rfl)

theorem State.bumpUpc_forward (s : State) (hs : s.SpinAhead) : s.Forward s.bumpUpc := by
  obtain ⟨u, n, h⟩ := s.bumpUpc_eq
  rw [h]
  exact .of_same hs rfl rfl (.inl rfl)

/-- The instant a WAIT works to is not before `tl.sched` (R171, R172). -/
theorem State.sched_le_waitDeadline (s : State) (now : Nat) : s.tl.sched.toNat ≤ s.waitDeadline now := by
  unfold State.waitDeadline
  split
  · split <;> omega
  · omega

theorem State.waitStart_forward (s t : State) (h : s.waitStart = .next t) : s.Forward t := by
  rw [State.waitStart_eq s _ rfl] at h
  generalize hn : s.mono.toNat + s.nextElapsed = now at h
  split at h
  · next hlim =>
    obtain ⟨hd, hnow, hw⟩ := hlim
    cases h
    have hle := s.sched_le_waitDeadline now
    have hm : (s.started now).mono.toNat = now := toNat_ofNat_time _ hnow
    by_cases hspin : now < s.waitDeadline now
    · have hsched : (s.tl.sched.toNat ≤ now ∧ (s.started now).tl.sched.toNat = now) ∨
          (s.started now).tl.sched.toNat = s.tl.sched.toNat := by
        by_cases hover : s.tl.sched.toNat + s.tl.timing.toNat < now
        · refine .inl ⟨by omega, ?_⟩
          simp only [State.started, hspin, hover, if_true, toNat_ofNat_time _ hnow]
        · exact .inr (by simp only [State.started, hspin, hover, if_true, if_false])
      refine ⟨by omega, by omega, fun x hx => ?_, fun _ => by omega⟩
      simp only [State.started, hspin, if_true, Option.some.injEq] at hx
      subst hx
      rw [hm, toNat_ofNat_time _ hw]
      omega
    · have hsched : (s.started now).tl.sched.toNat = s.waitDeadline now := by
        simp only [State.started, hspin, if_false, toNat_ofNat_time _ hw]
      refine ⟨by omega, by omega, fun x hx => ?_, fun _ => by omega⟩
      simp only [State.started, hspin, if_false] at hx
      cases hx
  · cases h

theorem State.spinRead_forward (s t : State) (hs : s.SpinAhead) (h : s.spinRead = .next t) :
    s.Forward t := by
  cases hx : s.ctl.spin with
  | none =>
    unfold State.spinRead at h
    rw [hx] at h
    cases h
    exact .of_same hs rfl rfl (.inl rfl)
  | some x =>
    obtain ⟨hsched, _⟩ := hs x hx
    obtain ⟨hm, _, _, _, _, hend⟩ := State.spinRead_cases s t x hx h
    have hmono : s.mono.toNat ≤ t.mono.toNat := by omega
    rcases hend with ⟨hd, htl, hnone⟩ | ⟨hd, htl, _, hsome⟩
    · refine ⟨by rw [htl]; exact hsched, hmono, fun y hy => ?_, fun _ => by rw [htl]; exact hd⟩
      rw [hnone] at hy; cases hy
    · refine ⟨by rw [htl], hmono, fun y hy => ?_, fun hle => by rw [htl]; omega⟩
      rw [hsome, Option.some.injEq] at hy
      subst hy
      exact ⟨by rw [htl]; exact hsched, hd⟩

/-! ## A whole step -/

theorem State.resume_forward (s t : State) (hs : s.SpinAhead) (h : s.resume = .next t) : s.Forward t :=
  runFrom_rel (fun s t => s.SpinAhead → s.Forward t) (fun _ hs => .of_same hs rfl rfl (.inl rfl))
    (fun _ _ _ h k hs => (h hs).trans (k (h hs).ahead)) _ (fun l _ s => localEffect_forward l s)
    (fun o _ s => opEffect_forward o s) State.bumpUpc_forward (fun s t h _ => s.waitStart_forward t h)
    (fun s t h hs => s.spinRead_forward t hs h) s t h hs

theorem State.hostRead_time (s : State) (off : Nat) :
    (s.hostRead off).tl = s.tl ∧ (s.hostRead off).mono = s.mono := by
  unfold State.hostRead
  split <;> exact ⟨rfl, rfl⟩

theorem State.writeReg_time (s : State) (off : Nat) (v : Word) :
    (s.writeReg off v).tl = s.tl ∧ (s.writeReg off v).mono = s.mono := by
  rcases s.writeReg_cases off v with h | ⟨_, h⟩ | ⟨r, h⟩ | h <;> rw [h]
  · exact ⟨rfl, rfl⟩
  · unfold State.writeBufData
    split <;> exact ⟨rfl, rfl⟩
  · exact ⟨rfl, rfl⟩
  · exact ⟨rfl, rfl⟩

/-- Settles O31: WAIT is what moves time in a command, and it moves it forward; a command begins in no
spin. -/
theorem timeNeverRunsBack : Obligations.TimeNeverRunsBack := by
  intro s t hok h hr
  have hsame : t.tl = s.tl → t.mono = s.mono →
      s.tl.sched.toNat ≤ t.tl.sched.toNat ∧ s.mono.toNat ≤ t.mono.toNat :=
    fun htl hm => by rw [htl, hm]; exact ⟨le_rfl, le_rfl⟩
  cases step_moves s t h with
  | reset rest hl _ => exact absurd hl (hr rest)
  | read off rest _ ht =>
    obtain ⟨htl, hm⟩ := (s.withScript rest).hostRead_time off
    exact hsame (by rw [ht, htl]; rfl) (by rw [ht, hm]; rfl)
  | dropped w rest _ _ ht => exact hsame (by rw [ht]; rfl) (by rw [ht]; rfl)
  | accepted w rest _ _ ht =>
    have hf := State.resume_forward _ t (fun x hx => by cases hx) ht
    exact ⟨hf.sched, hf.mono⟩
  | written off v rest _ ht =>
    obtain ⟨htl, hm⟩ := (s.withScript rest).writeReg_time off v
    exact hsame (by rw [ht, htl]; rfl) (by rw [ht, hm]; rfl)
  | resumed _ ht =>
    have hf := State.resume_forward s t (s.spinOk_iff.1 hok).1 ht
    exact ⟨hf.sched, hf.mono⟩
  | idle _ ht =>
    obtain ⟨hm, he⟩ := State.idleTick_eq_next s t ht
    exact ⟨by rw [he], by omega⟩

end Sys2Proof.Machine
end

section
/-! SUPPORT. The invariant (10_state.md R36, R44, R45, R51, 41_timeline.md R166, R171, 20_memory.md R75): an
induction for what a running command keeps, and each operation's part of it. -/

namespace Sys2Proof.Machine

/-! ## What every step of a running command keeps -/

/-- Two states, the later of which has what the earlier has while a command runs in it. -/
def KeepsWhileBusy (P : State → Prop) (s t : State) : Prop :=
  s.regs.busy = true ∧ P s → t.regs.busy = true ∧ P t

section
variable (P : State → Prop)
  (hbump : ∀ s, s.regs.busy = true → P s → P s.bumpUpc)
  (hstart : ∀ s t, s.regs.busy = true → P s → s.waitStart = .next t → P t)
  (hread : ∀ s t, s.regs.busy = true → P s → s.spinRead = .next t → P t)
include hbump hread

theorem spinOn_keepsWhileBusy (stop : Option Nat) (s t : State) (h : s.spinOn stop = .next t) :
    KeepsWhileBusy P s t :=
  State.spinOn_rel (KeepsWhileBusy P) (fun _ => id) (fun _ _ _ h k => k ∘ h)
    (fun s h => ⟨by rw [s.bumpUpc_same.regs]; exact h.1, hbump s h.1 h.2⟩)
    (fun s t hr h => ⟨by rw [(s.spinRead_same t hr).regs]; exact h.1, hread s t h.1 h.2 hr⟩) _ s t h

include hstart

theorem waitTo_keepsWhileBusy (stop : Option Nat) (s t : State) (h : s.waitTo stop = .next t) :
    KeepsWhileBusy P s t :=
  State.waitTo_rel (KeepsWhileBusy P) (fun _ => id) (fun _ _ _ h k => k ∘ h)
    (fun s h => ⟨by rw [s.bumpUpc_same.regs]; exact h.1, hbump s h.1 h.2⟩)
    (fun s t hw h => ⟨by rw [(s.waitStart_same t hw).regs]; exact h.1, hstart s t h.1 h.2 hw⟩)
    (fun s t hr h => ⟨by rw [(s.spinRead_same t hr).regs]; exact h.1, hread s t h.1 h.2 hr⟩) _ s t h

/-- What every item of a program keeps while BUSY = 1 the program keeps, interrupted or not: no item acts
once the command has finished (R13). -/
theorem run_keeps (items : List Item)
    (hloc : ∀ l, Item.loc l ∈ items → ∀ s, s.regs.busy = true → P s → P (localEffect l s))
    (hop : ∀ o, Item.op o ∈ items → ∀ s, s.regs.busy = true → P s → P (opEffect o s))
    (s t : State) (hs : P s) (h : run items s = .next t) : P t := by
  induction items generalizing s with
  | nil => cases h; exact hs
  | cons x r ih =>
    have ih' := ih (fun l hl => hloc l (List.mem_cons_of_mem _ hl))
      (fun o ho => hop o (List.mem_cons_of_mem _ ho))
    cases hb : s.regs.busy with
    | false => rw [run_idle _ s hb] at h; cases h; exact hs
    | true =>
      cases x with
      | loc l =>
        rw [run_loc, State.whileBusy_busy s _ hb] at h
        exact ih' _ (hloc l List.mem_cons_self s hb hs) h
      | op o =>
        have hu := hop o List.mem_cons_self s hb hs
        have hstep : P (opEffect o s).bumpUpc := by
          cases hb' : (opEffect o s).regs.busy with
          | true => exact hbump _ hb' hu
          | false => simpa [State.bumpUpc, hb'] using hu
        rw [run_op, State.whileBusy_busy s _ hb] at h
        split at h
        · cases h; exact hstep
        · exact ih' _ hstep h
      | wait =>
        rw [run_wait, if_pos hb] at h
        obtain ⟨u, hu, h⟩ := thenRun_eq_next _ _ _ h
        obtain ⟨_, hstep⟩ := waitTo_keepsWhileBusy P hbump hstart hread _ s u hu ⟨hb, hs⟩
        split at h
        · cases h; exact hstep
        · exact ih' _ hstep h

theorem runFrom_keeps (items : List Item)
    (hloc : ∀ l, Item.loc l ∈ items → ∀ s, s.regs.busy = true → P s → P (localEffect l s))
    (hop : ∀ o, Item.op o ∈ items → ∀ s, s.regs.busy = true → P s → P (opEffect o s))
    (s t : State) (hb : s.regs.busy = true) (hs : P s) (h : runFrom items s = .next t) : P t := by
  obtain ⟨u, hu, h⟩ := thenRun_eq_next _ _ _ h
  obtain ⟨_, hstep⟩ := spinOn_keepsWhileBusy P hbump hread _ s u hu ⟨hb, hs⟩
  split at h
  · cases h; exact hstep
  · exact run_keeps P hbump hstart hread _ (fun l hl => hloc l (mem_dropOps _ _ _ hl))
      (fun o ho => hop o (mem_dropOps _ _ _ ho)) u t hstep h

end

/-! ## The invariant, one operation at a time -/

section
variable {s t : State}

theorem Params.bufSize_bounds {p : Config.Params} (h : p.legal = true) :
    1 ≤ p.bufSize ∧ p.bufSize ≤ 65536 := by
  simp only [Config.Params.legal, Bool.and_eq_true, decide_eq_true_eq] at h
  obtain ⟨⟨⟨⟨_, _⟩, hpos⟩, hle⟩, _⟩ := h
  exact ⟨hpos, hle⟩

theorem State.Inv.spinAhead (h : s.Inv) : s.SpinAhead := (s.spinOk_iff.1 h.spin_ok).1

/-- A running sequencer is not bound to the idle control state. -/
theorem idle_ctl_of_busy (hb : s.regs.busy = true) : s.regs.busy = false → s.ctl = Control.idle :=
  fun hi => by rw [hb] at hi; cases hi

/-- A change of time that keeps its bounds keeps the invariant of a running command. -/
theorem State.Inv.of_forward (h : s.Inv) (hb : s.regs.busy = true) (hsame : s.SameButTime t)
    (hf : s.Forward t) : t.Inv where
  params_legal := by rw [hsame.params]; exact h.params_legal
  buf_wf := by rw [hsame.buf]; exact h.buf_wf
  buf_bound := by rw [hsame.buf, hsame.params]; exact h.buf_bound
  ptr_bound := by rw [hsame.regs, hsame.params]; exact h.ptr_bound
  slots_length := by rw [hsame.slots, hsame.params]; exact h.slots_length
  slots_width := by rw [hsame.slots]; exact h.slots_width
  sched_le_mono := hf.le h.sched_le_mono
  tx_usable := by rw [hsame.port]; exact h.tx_usable
  masks_usable := by rw [hsame.ctl]; exact h.masks_usable
  idle_ctl := idle_ctl_of_busy (by rw [hsame.regs, hb])
  spin_ok := t.spinOk_iff.2 ⟨hf.ahead, fun _ => by rw [hsame.regs, hb]⟩

theorem State.Inv.bumpUpc (h : s.Inv) (hb : s.regs.busy = true) : s.bumpUpc.Inv :=
  h.of_forward hb s.bumpUpc_same (s.bumpUpc_forward h.spinAhead)

theorem State.Inv.waitStart (h : s.Inv) (hb : s.regs.busy = true) (hw : s.waitStart = .next t) : t.Inv :=
  h.of_forward hb (s.waitStart_same t hw) (s.waitStart_forward t hw)

theorem State.Inv.spinRead (h : s.Inv) (hb : s.regs.busy = true) (hr : s.spinRead = .next t) : t.Inv :=
  h.of_forward hb (s.spinRead_same t hr) (s.spinRead_forward t h.spinAhead hr)

theorem State.Inv.finish (h : s.Inv) (c : Result) : (s.finish c).Inv :=
  { h with
    masks_usable := Masks.usable_zero
    idle_ctl := fun _ => rfl
    spin_ok := rfl }

/-- Registers of the control state other than the masks and the spin are free while a command runs. -/
theorem State.Inv.setCtl (h : s.Inv) (hb : s.regs.busy = true) (c : Control) (e : Env)
    (hm : c.masks.Usable) (hx : c.spin = s.ctl.spin) : ({ s with ctl := c, env := e } : State).Inv :=
  { h with
    masks_usable := hm
    idle_ctl := idle_ctl_of_busy hb
    spin_ok := by
      have hok := h.spin_ok
      rw [State.spinOk] at hok ⊢
      simp only [hx]
      exact hok }

theorem State.Inv.setSlots (h : s.Inv) (p : Nat) (q : Slot) (hq : q.valid = true → q.widthOk = true) :
    (s.setSlot p q).Inv :=
  { h with
    slots_length := by rw [State.setSlot, List.length_set]; exact h.slots_length
    slots_width := fun x hx => by
      rcases List.mem_or_eq_of_mem_set hx with hx | rfl
      · exact h.slots_width x hx
      · exact hq }

theorem State.Inv.bufWrite (h : s.Inv) (i : Nat) (v : Byte) (hi : i < s.params.bufSize) :
    (s.bufWrite i v).Inv :=
  { h with
    buf_wf := Memory.wf_write _ _ _ h.buf_wf
    buf_bound := fun c hc => by
      rcases Memory.mem_write _ _ _ _ hc with rfl | hc
      · exact hi
      · exact h.buf_bound c hc }

/-- One more transaction in the log, whatever the levels and directions become. -/
theorem State.Inv.addTxn (h : s.Inv) (o d : Word) (x : Txn) (hx : x.usable = true) :
    ({ s with port := ⟨o, d, s.port.tx ++ [x]⟩ } : State).Inv :=
  { h with
    tx_usable := fun y hy => by
      rcases List.mem_append.1 hy with hy | hy
      · exact h.tx_usable y hy
      · rw [List.mem_singleton.1 hy]; exact hx }

/-- A line that fits its program keeps the invariant while the command runs. -/
theorem State.Inv.localEffect (h : s.Inv) (hb : s.regs.busy = true) (c : Except Reject Instr) (l : Local)
    (hl : (Item.loc l).Fits s.params c) : (localEffect l s).Inv := by
  cases l with
  | needGpio =>
    have henv : ∀ e, ({ s with env := e } : State).Inv := fun e => { h with }
    obtain ⟨e, he | he⟩ := s.needGpio_cases
    · rw [Machine.localEffect, he]; exact henv e
    · rw [Machine.localEffect, he]; exact (henv e).finish _
  | latch p q => exact h.setSlots p q fun _ => hl.2
  | invalidate p => exact h.setSlots p _ fun hv => by cases hv
  | masks m => exact h.setCtl hb _ s.env hl rfl
  | loadByte i src => exact h.setCtl hb _ s.env h.masks_usable rfl
  | takeGroup q k => exact h.setCtl hb _ s.env (q.assertMasks_usable _) rfl
  | deassert q => exact h.setCtl hb _ s.env (q.deassertMasks_usable _) rfl
  | startUnit i => exact h.setCtl hb _ s.env h.masks_usable rfl
  | readGroup k => exact h.setCtl hb _ s.env h.masks_usable rfl
  | accumulate q => exact h.setCtl hb _ _ h.masks_usable rfl
  | sinkBuf i => exact h.bufWrite i _ hl
  | loadRdval => exact { h with }

/-- So does a micro-operation that fits its program. -/
theorem State.Inv.opEffect (h : s.Inv) (hb : s.regs.busy = true) (c : Except Reject Instr) (o : Op)
    (ho : (Item.op o).Fits s.params c) : (opEffect o s).Inv := by
  obtain ⟨hclear, hset⟩ := h.masks_usable
  cases o with
  | mode m d => exact h.addTxn _ _ (.mode m d) ho
  | clr m => exact h.addTxn _ _ (.clr m) ho
  | set m => exact h.addTxn _ _ (.set m) ho
  | clrMasks => exact h.addTxn _ _ (.clr s.ctl.masks.c) hclear
  | setMasks => exact h.addTxn _ _ (.set s.ctl.masks.s) hset
  | adv d => exact { h with }
  | readBank => exact (h.addTxn _ _ (.read _) rfl).setCtl hb _ _ h.masks_usable rfl
  | finish r => exact h.finish r

/-! ## Whole steps -/

/-- The invariant, for the parameters a program was made with. -/
def State.InvWith (par : Config.Params) (s : State) : Prop := s.Inv ∧ s.params = par

theorem State.Inv.resume (h : s.Inv) (hb : s.regs.busy = true) (hr : s.resume = .next t) : t.Inv := by
  have hkeep : t.InvWith s.params :=
    runFrom_keeps (State.InvWith s.params)
      (fun u hu hi => ⟨hi.1.bumpUpc hu, u.bumpUpc_same.params.trans hi.2⟩)
      (fun u v hu hi hw => ⟨hi.1.waitStart hu hw, (u.waitStart_same v hw).params.trans hi.2⟩)
      (fun u v hu hi hw => ⟨hi.1.spinRead hu hw, (u.spinRead_same v hw).params.trans hi.2⟩)
      s.running
      (fun l hl u hu hi => ⟨hi.1.localEffect hu _ l (hi.2 ▸ s.running_fits _ hl),
        (localEffect_runKeeps l u).params.trans hi.2⟩)
      (fun o ho u hu hi => ⟨hi.1.opEffect hu _ o (hi.2 ▸ s.running_fits _ ho),
        (opEffect_runKeeps o u).params.trans hi.2⟩)
      s t hb ⟨h, rfl⟩ hr
  exact hkeep.1

theorem State.Inv.withScript (h : s.Inv) (rest : List HostMove) : (s.withScript rest).Inv := { h with }

theorem State.Inv.resetNow (h : s.Inv) : s.resetNow.Inv where
  params_legal := h.params_legal
  buf_wf := rfl
  buf_bound := fun c hc => by cases hc
  ptr_bound := (Params.bufSize_bounds h.params_legal).1
  slots_length := List.length_replicate
  slots_width := fun q hq hv => by rw [List.eq_of_mem_replicate hq] at hv; cases hv
  sched_le_mono := le_rfl
  tx_usable := h.tx_usable
  masks_usable := Masks.usable_zero
  idle_ctl := fun _ => rfl
  spin_ok := rfl

/-- The command just accepted holds nothing of an earlier one. -/
theorem State.Inv.accepted (h : s.Inv) (w : Word) : (s.accept w).begin.Inv :=
  { h with
    masks_usable := Masks.usable_zero
    idle_ctl := fun hi => by cases hi
    spin_ok := rfl }

theorem State.Inv.drop (h : s.Inv) : s.drop.Inv := { h with }

theorem State.Inv.setPtr (h : s.Inv) (n : Nat) :
    ({ s with regs := { s.regs with ptr := BitVec.ofNat 16 (n % s.params.bufSize) } } : State).Inv := by
  obtain ⟨hpos, hle⟩ := Params.bufSize_bounds h.params_legal
  exact { h with
    ptr_bound := by
      show (BitVec.ofNat 16 (n % s.params.bufSize)).toNat < s.params.bufSize
      rw [toNat_ofNat_mod n _ hpos hle]
      exact Nat.mod_lt n hpos }

theorem State.Inv.bumpPtr (h : s.Inv) : s.bumpPtr.Inv := h.setPtr _

theorem State.Inv.hostRead (h : s.Inv) (off : Nat) : (s.hostRead off).Inv := by
  have hreads : ({ s with reads := s.reads ++ [(off, s.regWord off)] } : State).Inv := { h with }
  unfold State.hostRead
  split
  · exact hreads.bumpPtr
  · exact hreads

theorem State.Inv.writeBufData (h : s.Inv) (v : Word) : (s.writeBufData v).Inv := by
  unfold State.writeBufData
  split
  · exact h.drop
  · exact (h.bufWrite _ _ h.ptr_bound).bumpPtr

theorem State.Inv.writeReg (h : s.Inv) (off : Nat) (v : Word) : (s.writeReg off v).Inv := by
  rcases s.writeReg_cases off v with hw | ⟨_, hw⟩ | ⟨r, hw⟩ | hw <;> rw [hw]
  · exact h.setPtr _
  · exact h.writeBufData v
  · exact { h with }
  · exact h

/-- An edge of the clock moves the timebase alone, and an idle sequencer is in no spin. -/
theorem State.Inv.idleTick (h : s.Inv) (hb : s.regs.busy = false) (ht : s.idleTick = .next t) : t.Inv := by
  obtain ⟨hm, he⟩ := State.idleTick_eq_next s t ht
  have hspin : t.ctl.spin = none := by rw [he, h.idle_ctl hb]; rfl
  have hok : t.spinOk = true := by simp only [State.spinOk, hspin]
  have hsched : t.tl.sched.toNat ≤ t.mono.toNat := by
    have hle := h.sched_le_mono
    have htl : t.tl = s.tl := by rw [he]
    rw [htl]
    omega
  rw [he] at hok hsched ⊢
  exact { h with sched_le_mono := hsched, spin_ok := hok }

end

/-- Settles O50: each way of moving to a next state keeps the invariant, a running command's by the
induction over its program. -/
theorem everyStepKeepsTheInvariant : Obligations.EveryStepKeepsTheInvariant := by
  intro s t h hstep
  cases step_moves s t hstep with
  | reset rest _ ht => rw [ht]; exact (h.withScript rest).resetNow
  | read off rest _ ht => rw [ht]; exact (h.withScript rest).hostRead off
  | dropped w rest _ _ ht => rw [ht]; exact (h.withScript rest).drop
  | accepted w rest _ _ ht => exact ((h.withScript rest).accepted w).resume rfl ht
  | written off v rest _ ht => rw [ht]; exact (h.withScript rest).writeReg off v
  | resumed hb ht => exact h.resume hb ht
  | idle hb ht => exact h.idleTick hb ht

/-- R7's values are in their ranges: P_NS_PER_TICK, the open one, is one more than a natural (log entry 3). -/
theorem standard_legal : Config.standard.legal = true := by
  simp [Config.standard, Config.Params.legal]

/-- Settles O49: power-on leaves no slot valid, BUF unwritten, an empty log and an idle sequencer. -/
theorem invariantHoldsAtReset : Obligations.InvariantHoldsAtReset where
  params_legal := standard_legal
  buf_wf := State.reset_buf_wf
  buf_bound := fun c hc => by cases hc
  ptr_bound := (Params.bufSize_bounds standard_legal).1
  slots_length := List.length_replicate
  slots_width := fun q hq hv => by rw [List.eq_of_mem_replicate hq] at hv; cases hv
  sched_le_mono := le_rfl
  tx_usable := fun x hx => by cases hx
  masks_usable := Masks.usable_zero
  idle_ctl := fun _ => rfl
  spin_ok := rfl

end Sys2Proof.Machine
end

section
/-! SUPPORT. What a step answers where a host access has no next state: R74's refusal, and the fault of log
entry 13. -/

namespace Sys2Proof.Machine

section
variable {s : State} {bits off : Nat} {v : Word} {rest : List HostMove}

theorem admitted_eq_false (h : bits ≠ 32 ∨ off % 4 ≠ 0) : admitted bits off = false := by
  rw [Bool.eq_false_iff, Ne, admitted_iff]
  omega

theorem step_of_lands_read_refused (h : s.lands (.read bits off) rest) (ha : bits ≠ 32 ∨ off % 4 ≠ 0) :
    step s = .refused (.hostAccess bits off) := by
  simp [step, State.turn_of_lands s _ rest h, State.hostTurn, admitted_eq_false ha]

theorem step_of_lands_write_refused (h : s.lands (.write bits off v) rest) (ha : bits ≠ 32 ∨ off % 4 ≠ 0) :
    step s = .refused (.hostAccess bits off) := by
  simp [step, State.turn_of_lands s _ rest h, State.hostTurn, admitted_eq_false ha]

theorem step_of_lands_read_outside (h : s.lands (.read 32 off) rest) (ha : off % 4 = 0)
    (hge : 256 ≤ off) : step s = .fault (.outsideHostSpace off) := by
  simp [step, State.turn_of_lands s _ rest h, State.hostTurn, (admitted_iff 32 off).2 ⟨rfl, ha⟩,
    hge.not_gt]

theorem step_of_lands_write_outside (h : s.lands (.write 32 off v) rest) (ha : off % 4 = 0)
    (hge : 256 ≤ off) : step s = .fault (.outsideHostSpace off) := by
  have h0 : off ≠ 0 := by omega
  simp [step, State.turn_of_lands s _ rest h, State.hostTurn, (admitted_iff 32 off).2 ⟨rfl, ha⟩, h0,
    hge.not_gt]

end

/-- Settles O12: an aligned word access finds no register from offset 256 on. -/
theorem accessesOutsideTheRegisterSpaceFault : Obligations.AccessesOutsideTheRegisterSpaceFault :=
  fun _ _ _ _ hge ha => ⟨fun hl => step_of_lands_read_outside hl ha hge,
    fun hl => step_of_lands_write_outside hl ha hge⟩

/-- Settles O11: an access that is no aligned word is refused; an aligned word access inside the space lands,
a write of CMD as a dropped one where it starts no command. -/
theorem accessesThatAreNotAlignedWordsAreRefused :
    Obligations.AccessesThatAreNotAlignedWordsAreRefused := by
  refine fun s bits off v rest => ⟨fun ha => ⟨fun hl => step_of_lands_read_refused hl ha,
    fun hl => step_of_lands_write_refused hl ha⟩, fun hbits ha hlt => ?_⟩
  subst hbits
  refine ⟨fun hl => ⟨_, step_of_lands_read hl ha hlt⟩, fun hl hstart => ?_⟩
  by_cases h0 : off = 0
  · subst h0
    exact ⟨_, step_of_lands_dropped hl (hstart.resolve_left fun h => h rfl)⟩
  · exact ⟨_, step_of_lands_write hl ha h0 hlt⟩

end Sys2Proof.Machine
end

section
/-! SUPPORT. What a command adds to the port log (20_memory.md R75). -/

namespace Sys2Proof.Machine

/-- The log is `tx` and then transactions that name usable pins only, and so will those of the transient
masks. -/
def State.LogsUsable (tx : List Txn) (s : State) : Prop :=
  s.ctl.masks.Usable ∧ ∃ l, s.port.tx = tx ++ l ∧ ∀ x ∈ l, x.usable = true

section
variable {tx : List Txn} {s t : State}

theorem State.LogsUsable.of_port (h : s.LogsUsable tx) (hp : t.port = s.port) (hm : t.ctl.masks.Usable) :
    t.LogsUsable tx :=
  ⟨hm, by rw [hp]; exact h.2⟩

theorem State.LogsUsable.of_same (h : s.LogsUsable tx) (hs : s.SameButTime t) : t.LogsUsable tx :=
  h.of_port hs.port (by rw [hs.ctl]; exact h.1)

theorem State.LogsUsable.addTxn (h : s.LogsUsable tx) (x : Txn) (ht : t.port.tx = s.port.tx ++ [x])
    (hm : t.ctl.masks = s.ctl.masks) (hx : x.usable = true) : t.LogsUsable tx := by
  obtain ⟨hmasks, l, hl, husable⟩ := h
  refine ⟨hm ▸ hmasks, l ++ [x], by rw [ht, hl, List.append_assoc], ?_⟩
  exact List.forall_mem_append.2 ⟨husable, List.forall_mem_singleton.2 hx⟩

/-- A line makes no transaction; the masks it leaves are its program's. -/
theorem State.LogsUsable.localEffect {par : Config.Params} {c : Except Reject Instr} {l : Local}
    (h : s.LogsUsable tx) (hl : (Item.loc l).Fits par c) : (localEffect l s).LogsUsable tx := by
  cases l with
  | needGpio =>
    obtain ⟨e, he | he⟩ := s.needGpio_cases
    · rw [Machine.localEffect, he]; exact h.of_port rfl h.1
    · rw [Machine.localEffect, he]; exact h.of_port rfl Masks.usable_zero
  | masks m => exact h.of_port rfl hl
  | takeGroup q k => exact h.of_port rfl (q.assertMasks_usable _)
  | deassert q => exact h.of_port rfl (q.deassertMasks_usable _)
  | _ => exact h.of_port rfl h.1

/-- A micro-operation makes at most one transaction, of its own mask or of a transient one. -/
theorem State.LogsUsable.opEffect {par : Config.Params} {c : Except Reject Instr} {o : Op}
    (h : s.LogsUsable tx) (ho : (Item.op o).Fits par c) : (opEffect o s).LogsUsable tx := by
  obtain ⟨hclear, hset⟩ := h.1
  cases o with
  | mode m d => exact h.addTxn (.mode m d) rfl rfl ho
  | clr m => exact h.addTxn (.clr m) rfl rfl ho
  | set m => exact h.addTxn (.set m) rfl rfl ho
  | clrMasks => exact h.addTxn (.clr s.ctl.masks.c) rfl rfl hclear
  | setMasks => exact h.addTxn (.set s.ctl.masks.s) rfl rfl hset
  | adv d => exact h.of_port rfl h.1
  | readBank => exact h.addTxn (.read _) rfl rfl rfl
  | finish r => exact h.of_port rfl Masks.usable_zero

end

/-- Settles O44: the accepted command starts with no masks and nothing added, and each item of its program
adds usable transactions alone. -/
theorem commandsNameUsablePinsOnly : Obligations.CommandsNameUsablePinsOnly := by
  intro i s t h
  rw [exec_eq_runFrom] at h
  have hstart : s.begin.LogsUsable s.port.tx :=
    ⟨Masks.usable_zero, [], (List.append_nil _).symm, List.forall_mem_nil _⟩
  have hend : t.LogsUsable s.port.tx :=
    runFrom_keeps (State.LogsUsable s.port.tx) (fun u _ hu => hu.of_same u.bumpUpc_same)
      (fun u v _ hu hw => hu.of_same (u.waitStart_same v hw))
      (fun u v _ hu hr => hu.of_same (u.spinRead_same v hr)) _
      (fun l hl u _ hu => hu.localEffect (programOf_fits i s.begin _ hl))
      (fun o ho u _ hu => hu.opEffect (programOf_fits i s.begin _ ho)) s.begin t rfl hstart h
  exact hend.2

end Sys2Proof.Machine
end

section
/-! SUPPORT. A running command does not look at the staging registers (20_memory.md R82): CREATE latches the
copy made at its acceptance. -/

namespace Sys2Proof.Machine

theorem stage_commutes (r : Staging) : CommutesWithItems fun s => s.stage r :=
  mapRegs_commutes (fun x => { x with staging := r }) (fun _ => rfl) (fun _ _ => rfl) (fun _ _ => rfl)

theorem programOf_stage (i : Instr) (s : State) (r : Staging) :
    programOf i (s.stage r) = programOf i s := by
  cases i <;> rfl

theorem State.running_stage (s : State) (r : Staging) : (s.stage r).running = s.running := by
  have hcmd : (s.stage r).regs.cmd = s.regs.cmd := rfl
  cases hd : decode s.regs.cmd with
  | ok i => rw [State.running_of_decode s i hd, State.running_of_decode (s.stage r) i hd, programOf_stage]
  | error e => rw [State.running_of_reject s e hd, State.running_of_reject (s.stage r) e hd]

/-- Settles O52: the program is the same, and no item of it touches the staging registers. -/
theorem stagingWritesDoNotChangeTheRunningCommand :
    Obligations.StagingWritesDoNotChangeTheRunningCommand := by
  intro s t r h
  rw [State.resume, s.running_stage r]
  exact (stage_commutes r).runFrom_next _ s t h

end Sys2Proof.Machine
end

section
/-! SUPPORT. A host move that lands inside a spin (20_memory.md R79, 41_timeline.md R171). -/

namespace Sys2Proof.Machine

/-- The state after a read short of the deadline of the spin `x`: time has passed, and fairness allows one
such read less (R171, R176). -/
def State.shortRead (s : State) (x : Spin) : State :=
  ({ s.dropElapsed with mono := BitVec.ofNat 64 (s.mono.toNat + s.nextElapsed) } : State).setSpin
    (some ⟨x.deadline, x.left - 1⟩)

theorem State.spinRead_short (s : State) (x : Spin) (hx : s.ctl.spin = some x) (hleft : x.left ≠ 0)
    (hshort : s.mono.toNat + s.nextElapsed < x.deadline.toNat) : s.spinRead = .next (s.shortRead x) := by
  have hlim : s.mono.toNat + s.nextElapsed < timeLimit := hshort.trans x.deadline.isLt
  simp [State.spinRead, State.shortRead, hx, hleft, State.clockFrom_eq, hlim,
    toNat_ofNat_time _ hlim, hshort.not_ge]

/-- A step made while a WAIT spins is counted, and the position stays (R171). -/
theorem State.bumpUpc_spinning (s : State) (hb : s.regs.busy = true) (hx : s.ctl.spin.isSome = true) :
    s.bumpUpc = { s with ctl := { s.ctl with steps := s.ctl.steps + 1 } } := by
  simp [State.bumpUpc, hb, hx]

/-- Where a host move lands after the next read of a spin, that read is the whole of what the command does. -/
theorem runFrom_one_read (items : List Item) (s t : State) (x : Spin) (hx : s.ctl.spin = some x)
    (hleft : x.left ≠ 0) (hnow : s.due = false) (hread : s.spinRead = .next t)
    (hthen : t.bumpUpc.due = true) : runFrom items s = .next t.bumpUpc := by
  obtain ⟨n, hn⟩ := Nat.exists_eq_succ_of_ne_zero hleft
  have hstop : t.bumpUpc.stop = s.stop :=
    State.stop_congr _ _ ((s.spinRead_same t hread).trans t.bumpUpc_same).script
  have hspin : s.spinOn s.stop = .next t.bumpUpc := by
    rw [State.due] at hnow hthen
    rw [hstop] at hthen
    simp [State.spinOn, hx, hnow, hn, spinTo, hread, hthen]
  rw [runFrom, hspin, thenRun_next, if_pos hthen]

/-- A running command goes on where no host move is due (R79). -/
theorem step_of_not_due (s : State) (hb : s.regs.busy = true) (hd : s.due = false) :
    step s = s.resume := by
  have hturn : s.turn = .sequencer := by
    cases hs : s.script with
    | nil => simp [State.turn, hs, hb]
    | cons m r =>
      have hlate : s.ctl.steps < m.after := by simpa [State.due, State.dueAt, State.stop, hs, hb] using hd
      simp [State.turn, hs, hb, hlate]
  rw [step, hturn]

/-- Settles O30: the move is due after the next read, and no sooner. -/
theorem hostMovesLandInsideASpin : Obligations.HostMovesLandInsideASpin := by
  intro s x act rest hb hx hs hleft hshort
  have hread := s.spinRead_short x hx hleft hshort
  have hnow : s.due = false := by simp [State.due, State.dueAt, State.stop, hs]
  have hbump := (s.shortRead x).bumpUpc_spinning hb rfl
  have hthen : (s.shortRead x).bumpUpc.due = true := by
    rw [hbump]
    simp [State.shortRead, State.due, State.dueAt, State.stop, hs, hb]
  refine ⟨(s.shortRead x).bumpUpc, ?_, ?_, ⟨s.ctl.steps + 1, ?_, .inr ?_⟩, ?_⟩
  · rw [step_of_not_due s hb hnow]
    exact runFrom_one_read _ s _ x hx hleft hnow hread hthen
  · rw [hbump]
    exact toNat_ofNat_time _ (hshort.trans x.deadline.isLt)
  · rw [hbump]; exact hs
  · rw [hbump]; exact le_rfl
  · rw [hbump]; rfl

end Sys2Proof.Machine
end

section
/-! SUPPORT. Every program ends in its `finish` (10_state.md R13). -/

namespace Sys2Proof.Machine

/-- The last item of a program is a `finish`. -/
def EndsInFinish (items : List Item) : Prop := ∃ xs c, items = xs ++ [.op (.finish c)]

theorem EndsInFinish.append {xs ys : List Item} (h : EndsInFinish ys) : EndsInFinish (xs ++ ys) := by
  obtain ⟨zs, c, rfl⟩ := h
  exact ⟨xs ++ zs, c, (List.append_assoc _ _ _).symm⟩

theorem finishOnly_endsInFinish (c : Result) : EndsInFinish (finishOnly c) := ⟨[], c, rfl⟩

theorem withSlot_endsInFinish (p : Nat) (s : State) (items : List Item) (h : EndsInFinish items) :
    EndsInFinish (withSlot p s items) := by
  unfold withSlot
  split
  · exact finishOnly_endsInFinish _
  · exact h

theorem createItems_endsInFinish (par : Config.Params) (p : Nat) (q : Slot) :
    EndsInFinish (createItems par p q) :=
  EndsInFinish.append ⟨[_, _], .ok, rfl⟩

theorem writeItems_endsInFinish (par : Config.Params) (q : Slot) (kind : Kind) (n : Nat)
    (src : ByteSource) : EndsInFinish (writeItems par q kind n src) :=
  ⟨_, .ok, rfl⟩

theorem readItems_endsInFinish (par : Config.Params) (q : Slot) (kind : Kind) (n : Nat) (snk : Sink) :
    EndsInFinish (readItems par q kind n snk) := by
  rw [readItems_eq]
  refine EndsInFinish.append ?_
  cases snk
  · exact ⟨[], .ok, rfl⟩
  · exact ⟨[_], .ok, rfl⟩

theorem programOf_endsInFinish (i : Instr) (s : State) : EndsInFinish (programOf i s) := by
  cases i with
  | nop => exact finishOnly_endsInFinish _
  | create p => exact withSlot_endsInFinish _ _ _ (createItems_endsInFinish _ _ _)
  | release p =>
    refine withSlot_endsInFinish _ _ _ ?_
    split
    · exact ⟨[_], .ok, rfl⟩
    · exact finishOnly_endsInFinish _
  | wrdata p n =>
    refine withSlot_endsInFinish _ _ _ ?_
    split
    · split
      · exact finishOnly_endsInFinish _
      · exact writeItems_endsInFinish _ _ _ _ _
    · exact finishOnly_endsInFinish _
  | wrcmd p imm =>
    refine withSlot_endsInFinish _ _ _ ?_
    split
    · exact writeItems_endsInFinish _ _ _ _ _
    · exact finishOnly_endsInFinish _
  | rddata p n =>
    refine withSlot_endsInFinish _ _ _ ?_
    split
    · split
      · exact finishOnly_endsInFinish _
      · split
        · exact finishOnly_endsInFinish _
        · exact readItems_endsInFinish _ _ _ _ _
    · exact finishOnly_endsInFinish _
  | rdreg p =>
    refine withSlot_endsInFinish _ _ _ ?_
    split
    · split
      · exact finishOnly_endsInFinish _
      · exact readItems_endsInFinish _ _ _ _ _
    · exact finishOnly_endsInFinish _

theorem run_finishOnly_idle (c : Result) (s t : State) (h : run (finishOnly c) s = .next t) :
    t.regs.busy = false := by
  cases hb : s.regs.busy with
  | false => rw [run_idle _ s hb] at h; cases h; exact hb
  | true =>
    have hidle : ((s.finish c).bumpUpc).regs.busy = false := by simp [State.bumpUpc]
    rw [finishOnly, run_op, State.whileBusy_busy s _ hb, opEffect, State.not_due_of_idle _ hidle] at h
    cases h; exact hidle

end Sys2Proof.Machine
end

section
/-! SUPPORT. Where a running command stands, and a WAIT interrupted and gone on with (10_state.md R50,
20_memory.md R79, 41_timeline.md R171). -/

namespace Sys2Proof.Machine

/-! ## The position -/

/-- The position, the spin and CREATE's staging copy are as before. -/
structure State.SamePlace (s t : State) : Prop where
  upc : t.ctl.upc = s.ctl.upc
  spin : t.ctl.spin = s.ctl.spin
  staged : t.ctl.staged = s.ctl.staged

theorem localEffect_samePlace (l : Local) (s : State) (h : (localEffect l s).regs.busy = true) :
    s.SamePlace (localEffect l s) := by
  cases l
  case needGpio =>
    obtain ⟨e, he | he⟩ := s.needGpio_cases
    · rw [localEffect, he]; exact ⟨rfl, rfl, rfl⟩
    · rw [localEffect, he] at h; cases h
  all_goals exact ⟨rfl, rfl, rfl⟩

theorem opEffect_samePlace (o : Op) (s : State) (h : (opEffect o s).regs.busy = true) :
    s.SamePlace (opEffect o s) := by
  cases o
  case finish c => cases h
  all_goals exact ⟨rfl, rfl, rfl⟩

/-- The micro-operations performed once the spin the command is in, if any, has ended (R50, R171). -/
def State.reached (s : State) : Nat := if s.ctl.spin.isSome then s.ctl.upc + 1 else s.ctl.upc

theorem State.reached_of_spin_none {s : State} (h : s.ctl.spin = none) : s.reached = s.ctl.upc := by
  simp [State.reached, h]

/-- A WAIT's step counts as performed the WAIT it ends or goes on with. -/
theorem State.reached_bumpUpc (s : State) (hb : s.regs.busy = true) :
    s.bumpUpc.reached = s.ctl.upc + 1 := by
  cases h : s.ctl.spin <;> simp [State.reached, State.bumpUpc, hb, h]

/-! ## A spin interrupted and gone on with -/

/-- The later state is of the same WAIT, or of none, and comes to the same when its spin goes on
undisturbed. -/
structure State.SameCourse (s t : State) : Prop where
  rest : t.spinOn none = s.spinOn none
  reached : t.reached = s.reached

theorem State.SameCourse.trans {s t u : State} (h : s.SameCourse t) (k : t.SameCourse u) : s.SameCourse u :=
  ⟨k.rest.trans h.rest, k.reached.trans h.reached⟩

theorem State.spinOn_of_spin_none (stop : Option Nat) {s : State} (h : s.ctl.spin = none) :
    s.spinOn stop = .next s := by
  simp [State.spinOn, h]

theorem State.spinOn_none_eq {s : State} {x : Spin} (hx : s.ctl.spin = some x) :
    s.spinOn none = spinTo none x.left s := by
  simp [State.spinOn, hx, State.dueAt]

/-- One read of a spin, its step counted: the spin ends there, or goes on with one read less (R171, R176). -/
theorem State.spinRead_sameCourse (s t : State) (x : Spin) (hb : s.regs.busy = true)
    (hx : s.ctl.spin = some x) (h : s.spinRead = .next t) : s.SameCourse t.bumpUpc := by
  have hbt : t.regs.busy = true := by rw [(s.spinRead_same t h).regs, hb]
  obtain ⟨_, _, _, hupc, _, hcases⟩ := State.spinRead_cases s t x hx h
  refine ⟨?_, by rw [t.reached_bumpUpc hbt, hupc]; simp [State.reached, hx]⟩
  rw [State.spinOn_none_eq hx]
  rcases hcases with ⟨_, _, hend⟩ | ⟨_, _, hleft, hsome⟩
  · rw [State.spinOn_of_spin_none none (t.bumpUpc_spin.trans hend)]
    cases x.left <;> simp [spinTo, h, hend]
  · obtain ⟨n, hn⟩ := Nat.exists_eq_succ_of_ne_zero hleft
    rw [State.spinOn_none_eq (t.bumpUpc_spin.trans hsome)]
    simp [hn, spinTo, h, hsome, State.dueAt]

/-- A spin stops where it has ended or where a host move lands. -/
theorem spinTo_stops (stop : Option Nat) (n : Nat) (s t : State) (x : Spin) (hb : s.regs.busy = true)
    (hx : s.ctl.spin = some x) (hn : x.left = n) (h : spinTo stop n s = .next t) :
    s.SameCourse t ∧ (t.ctl.spin = none ∨ t.dueAt stop = true) := by
  induction n generalizing s x with
  | zero =>
    obtain ⟨u, hu, h⟩ := thenRun_eq_next _ _ _ h
    cases h
    obtain ⟨_, _, _, _, _, ⟨_, _, hend⟩ | ⟨_, _, hleft, _⟩⟩ := State.spinRead_cases s u x hx hu
    · exact ⟨s.spinRead_sameCourse u x hb hx hu, .inl (u.bumpUpc_spin.trans hend)⟩
    · exact absurd hn hleft
  | succ n ih =>
    obtain ⟨u, hu, h⟩ := thenRun_eq_next _ _ _ h
    have hcourse := s.spinRead_sameCourse u x hb hx hu
    have hbusy : u.bumpUpc.regs.busy = true := by
      rw [u.bumpUpc_same.regs, (s.spinRead_same u hu).regs, hb]
    obtain ⟨_, _, _, _, _, ⟨_, _, hend⟩ | ⟨_, _, _, hsome⟩⟩ := State.spinRead_cases s u x hx hu
    · simp only [hend, Option.isSome_none, Bool.false_and, Bool.false_eq_true, if_false] at h
      cases h
      exact ⟨hcourse, .inl (u.bumpUpc_spin.trans hend)⟩
    · cases hd : u.bumpUpc.dueAt stop with
      | true =>
        simp only [hd, Bool.not_true, Bool.and_false, Bool.false_eq_true, if_false] at h
        cases h
        exact ⟨hcourse, .inr hd⟩
      | false =>
        simp only [hd, hsome, Option.isSome_some, Bool.not_false, Bool.and_self, if_true] at h
        obtain ⟨hrest, hstop⟩ := ih _ ⟨x.deadline, x.left - 1⟩ hbusy (u.bumpUpc_spin.trans hsome)
          (by simp [hn]) h
        exact ⟨hcourse.trans hrest, hstop⟩

theorem State.spinOn_stops (stop : Option Nat) (s t : State) (hb : s.regs.busy = true)
    (h : s.spinOn stop = .next t) : s.SameCourse t ∧ (t.ctl.spin = none ∨ t.dueAt stop = true) := by
  cases hx : s.ctl.spin with
  | none =>
    rw [State.spinOn_of_spin_none stop hx] at h
    cases h; exact ⟨⟨rfl, rfl⟩, .inl hx⟩
  | some x =>
    simp only [State.spinOn, hx] at h
    split at h
    · next hd => cases h; exact ⟨⟨rfl, rfl⟩, .inr hd⟩
    · exact spinTo_stops stop _ s t x hb hx rfl h

/-- An undisturbed spin ends its WAIT. -/
theorem State.spinOn_none_ends (s t : State) (hb : s.regs.busy = true) (h : s.spinOn none = .next t) :
    t.ctl.spin = none ∧ t.ctl.upc = s.reached := by
  obtain ⟨hcourse, hend⟩ := s.spinOn_stops none t hb h
  have hnone : t.ctl.spin = none := hend.resolve_right (by simp [State.dueAt])
  exact ⟨hnone, by rw [← hcourse.reached, State.reached_of_spin_none hnone]⟩

theorem State.waitStart_upc (s t : State) (h : s.waitStart = .next t) : t.ctl.upc = s.ctl.upc := by
  rw [State.waitStart_eq s _ rfl] at h
  split at h
  · cases h; rfl
  · cases h

/-- A WAIT stopped for a host move comes, gone on with, to what the whole WAIT comes to. -/
theorem State.waitTo_stops (stop : Option Nat) (s t : State) (hb : s.regs.busy = true)
    (h : s.waitTo stop = .next t) :
    t.spinOn none = s.wait ∧ t.reached = s.ctl.upc + 1 ∧ (t.ctl.spin = none ∨ t.dueAt stop = true) := by
  obtain ⟨u, hu, h⟩ := thenRun_eq_next _ _ _ h
  have hbu : u.regs.busy = true := by rw [(s.waitStart_same u hu).regs, hb]
  have hbusy : u.bumpUpc.regs.busy = true := by rw [u.bumpUpc_same.regs, hbu]
  obtain ⟨hcourse, hend⟩ := u.bumpUpc.spinOn_stops stop t hbusy h
  refine ⟨?_, ?_, hend⟩
  · rw [hcourse.rest, State.wait, State.waitTo, hu, thenRun_next]
  · rw [hcourse.reached, u.reached_bumpUpc hbu, s.waitStart_upc u hu]

end Sys2Proof.Machine
end

section
/-! SUPPORT. A program interrupted comes, gone on with, to what it comes to undisturbed (10_state.md R50). -/

namespace Sys2Proof.Machine

theorem thenRun_congr (o : StepOutcome) (f g : State → StepOutcome)
    (h : ∀ s, o = .next s → f s = g s) : thenRun o f = thenRun o g := by
  cases o with
  | next s => exact h s rfl
  | fault x => rfl
  | refused x => rfl

/-- What is left of a program, no host move to come. -/
def restOf (items : List Item) (s : State) : StepOutcome :=
  thenRun (s.spinOn none) fun u => runAll (dropOps u.ctl.upc items) u

theorem restOf_of_spin_none (items : List Item) {s : State} (h : s.ctl.spin = none) :
    restOf items s = runAll (dropOps s.ctl.upc items) s := by
  rw [restOf, State.spinOn_of_spin_none none h, thenRun_next]

/-- From its next micro-operation on, `items` is what is left of `prog` after its first `k`. -/
def FollowsFrom (prog items : List Item) (k : Nat) : Prop :=
  ∀ n, dropOps (n + 1) items = dropOps (k + (n + 1)) prog

/-- A micro-operation or a WAIT performed moves the position on by one. -/
theorem FollowsFrom.next {prog r : List Item} {x : Item} {k : Nat} (h : FollowsFrom prog (x :: r) k)
    (hx : ∀ n, dropOps (n + 1) (x :: r) = dropOps n r) :
    FollowsFrom prog r (k + 1) ∧ dropOps (k + 1) prog = r := by
  refine ⟨fun n => ?_, ?_⟩
  · rw [← hx, h (n + 1)]
    congr 1
    omega
  · rw [← h 0, hx, dropOps_zero]

/-- A program stopped in the middle comes, gone on with, to what it comes to undisturbed. -/
theorem run_stopped (prog xs : List Item) (c : Result) (s t : State)
    (hprog : FollowsFrom prog (xs ++ finishOnly c) s.ctl.upc) (hx : s.ctl.spin = none)
    (h : run (xs ++ finishOnly c) s = .next t) (hb : t.regs.busy = true) :
    restOf prog t = runAll (xs ++ finishOnly c) s := by
  have hidle : ∀ (ys : List Item) (u : State), run ys u = .next t → u.regs.busy = true := by
    intro ys u hu
    by_contra hn
    rw [run_idle ys u (by simpa using hn)] at hu
    cases hu; exact hn hb
  induction xs generalizing s with
  | nil => rw [run_finishOnly_idle c s t h] at hb; cases hb
  | cons y r ih =>
    have hbs := hidle _ s h
    rw [List.cons_append] at h hprog ⊢
    cases y with
    | loc l =>
      rw [run_loc, State.whileBusy_busy s _ hbs] at h
      have hsame := localEffect_samePlace l s (hidle _ _ h)
      rw [runAll, State.whileBusy_busy s _ hbs]
      exact ih _ (by rw [hsame.upc]; exact hprog) (hsame.spin.trans hx) h
    | op o =>
      obtain ⟨hfollow, hleft⟩ := hprog.next fun _ => rfl
      rw [run_op, State.whileBusy_busy s _ hbs] at h
      rw [runAll, State.whileBusy_busy s _ hbs]
      have hbu : (opEffect o s).bumpUpc.regs.busy = true := by
        split at h
        · cases h; exact hb
        · exact hidle _ _ h
      rw [(opEffect o s).bumpUpc_same.regs] at hbu
      have hsame := opEffect_samePlace o s hbu
      have hspin : (opEffect o s).bumpUpc.ctl.spin = none := by rw [State.bumpUpc_spin, hsame.spin, hx]
      have hupc : (opEffect o s).bumpUpc.ctl.upc = s.ctl.upc + 1 := by
        rw [← State.reached_of_spin_none hspin, State.reached_bumpUpc _ hbu, hsame.upc]
      split at h
      · cases h
        rw [restOf_of_spin_none prog hspin, hupc, hleft]
      · exact ih _ (by rw [hupc]; exact hfollow) hspin h
    | wait =>
      obtain ⟨hfollow, hleft⟩ := hprog.next fun _ => rfl
      rw [run_wait, if_pos hbs] at h
      obtain ⟨u, hu, h⟩ := thenRun_eq_next _ _ _ h
      obtain ⟨hrest, hreached, hend⟩ := s.waitTo_stops _ u hbs hu
      rw [runAll, if_pos hbs, ← hrest]
      split at h
      · cases h
        refine thenRun_congr _ _ _ fun v hv => ?_
        rw [(State.spinOn_none_ends _ v hb hv).2, hreached, hleft]
      · next hdue =>
        have hstop : u.stop = s.stop := State.stop_congr _ _ (State.waitTo_same _ _ _ hu).script
        rw [State.due, hstop] at hdue
        have hspin := hend.resolve_right hdue
        have hupc : u.ctl.upc = s.ctl.upc + 1 := by rw [← State.reached_of_spin_none hspin, hreached]
        rw [State.spinOn_of_spin_none none hspin, thenRun_next]
        exact ih _ (by rw [hupc]; exact hfollow) hspin h

/-- So does a program started at its first item, stopped before its first micro-operation or later. -/
theorem runFrom_stopped (prog : List Item) (hprog : EndsInFinish prog) (s t : State)
    (hupc : s.ctl.upc = 0) (hx : s.ctl.spin = none) (h : runFrom prog s = .next t)
    (hb : t.regs.busy = true) : restOf prog t = restOf prog s := by
  obtain ⟨xs, c, rfl⟩ := hprog
  rw [runFrom, State.spinOn_of_spin_none _ hx, thenRun_next, hupc, dropOps_zero] at h
  split at h
  · cases h; rfl
  · rw [restOf_of_spin_none _ hx, hupc, dropOps_zero]
    exact run_stopped _ xs c s t (fun n => by rw [hupc, Nat.zero_add]; rfl) hx h hb

end Sys2Proof.Machine
end

section
/-! SUPPORT. A program with no host move to come runs as `runAll` does, and no item looks at the script
(20_memory.md R76). -/

namespace Sys2Proof.Machine

/-! ## No host move to come -/

theorem State.due_of_no_moves {s : State} (h : s.script = []) : s.due = false :=
  s.not_due 1 le_rfl fun m hm => by simp [h] at hm

theorem State.stop_of_no_moves {s : State} (h : s.script = []) : s.stop = none := by
  simp [State.stop, h]

theorem run_of_no_moves (items : List Item) (s : State) (h : s.script = []) :
    run items s = runAll items s := by
  induction items generalizing s with
  | nil => rfl
  | cons x r ih =>
    cases x with
    | loc l =>
      rw [run_loc]
      exact ih _ ((State.whileBusy_script s _ (localEffect_script l)).trans h)
    | op o =>
      have hs : (s.whileBusy fun u => (opEffect o u).bumpUpc).script = [] :=
        (State.whileBusy_script s _ (by simp)).trans h
      rw [run_op, State.due_of_no_moves hs]
      exact ih _ hs
    | wait =>
      rw [run_wait, State.stop_of_no_moves h, runAll]
      split
      · refine thenRun_congr _ _ _ fun u hu => ?_
        have hs : u.script = [] := (State.waitTo_same _ _ _ hu).script.trans h
        rw [State.due_of_no_moves hs]
        exact ih _ hs
      · exact ih _ h

theorem runFrom_of_no_moves (items : List Item) (s : State) (h : s.script = []) :
    runFrom items s = restOf items s := by
  rw [runFrom, State.stop_of_no_moves h]
  refine thenRun_congr _ _ _ fun u hu => ?_
  have hs : u.script = [] := (State.spinOn_same _ _ _ hu).script.trans h
  rw [State.due_of_no_moves hs]
  exact run_of_no_moves _ u hs

/-! ## The script is the host's alone -/

section
variable (m : List HostMove)

theorem State.withScript_clockFrom (s : State) (least : Nat) :
    (s.withScript m).clockFrom least = (s.clockFrom least).map (State.withScript · m) := by
  rw [State.clockFrom_eq, State.clockFrom_eq]
  rw [apply_ite (Option.map _)]
  rfl

theorem State.withScript_waitStart (s : State) :
    (s.withScript m).waitStart = thenRun s.waitStart fun t => .next (t.withScript m) := by
  rw [State.waitStart_eq s _ rfl, State.waitStart_eq (s.withScript m) _ rfl,
    apply_ite (thenRun · fun t => .next (t.withScript m))]
  rfl

theorem State.withScript_spinRead (s : State) :
    (s.withScript m).spinRead = thenRun s.spinRead fun t => .next (t.withScript m) := by
  have hspin : (s.withScript m).ctl.spin = s.ctl.spin := rfl
  unfold State.spinRead
  rw [hspin]
  cases s.ctl.spin with
  | none => rfl
  | some x =>
    simp only [State.withScript_clockFrom]
    cases s.clockFrom (if x.left = 0 then x.deadline.toNat else 0) with
    | none => rfl
    | some t =>
      rw [Option.map_some, apply_ite (thenRun · fun t => .next (t.withScript m))]
      rfl

theorem State.withScript_bumpUpc (s : State) : (s.withScript m).bumpUpc = s.bumpUpc.withScript m := by
  rw [State.bumpUpc, State.bumpUpc, apply_ite (State.withScript · m)]
  rfl

theorem localEffect_withScript (l : Local) (s : State) :
    localEffect l (s.withScript m) = (localEffect l s).withScript m := by
  cases l
  case needGpio =>
    rw [localEffect, localEffect, State.needGpio, State.needGpio, apply_ite (State.withScript · m)]
    rfl
  all_goals rfl

theorem opEffect_withScript (o : Op) (s : State) :
    opEffect o (s.withScript m) = (opEffect o s).withScript m := by
  cases o <;> rfl

theorem State.whileBusy_withScript (s : State) (f : State → State)
    (hf : ∀ u, f (u.withScript m) = (f u).withScript m) :
    (s.withScript m).whileBusy f = (s.whileBusy f).withScript m := by
  unfold State.whileBusy
  rw [hf, apply_ite (State.withScript · m)]
  rfl

theorem spinTo_withScript (n : Nat) (s : State) :
    spinTo none n (s.withScript m) = thenRun (spinTo none n s) fun t => .next (t.withScript m) := by
  induction n generalizing s with
  | zero => simp [spinTo, State.withScript_spinRead, thenRun_assoc, State.withScript_bumpUpc]
  | succ n ih =>
    simp only [spinTo, State.withScript_spinRead, thenRun_assoc, thenRun_next, State.withScript_bumpUpc]
    refine thenRun_congr _ _ _ fun u _ => ?_
    cases hx : u.ctl.spin with
    | none => simp [State.withScript, hx]
    | some x => simpa [State.dueAt, State.withScript, hx] using ih u.bumpUpc

theorem State.withScript_spinOn (s : State) :
    (s.withScript m).spinOn none = thenRun (s.spinOn none) fun t => .next (t.withScript m) := by
  have hspin : (s.withScript m).ctl.spin = s.ctl.spin := rfl
  cases hx : s.ctl.spin with
  | none => rw [State.spinOn_of_spin_none none hx, State.spinOn_of_spin_none none (hspin.trans hx)]; rfl
  | some x => rw [State.spinOn_none_eq hx, State.spinOn_none_eq (hspin.trans hx), spinTo_withScript]

theorem State.withScript_wait (s : State) :
    (s.withScript m).wait = thenRun s.wait fun t => .next (t.withScript m) := by
  simp only [State.wait, State.waitTo, State.withScript_waitStart, thenRun_assoc, thenRun_next,
    State.withScript_bumpUpc, State.withScript_spinOn]

theorem runAll_withScript (items : List Item) (s : State) :
    runAll items (s.withScript m) = thenRun (runAll items s) fun t => .next (t.withScript m) := by
  induction items generalizing s with
  | nil => rfl
  | cons x r ih =>
    cases x with
    | loc l =>
      rw [runAll, State.whileBusy_withScript m s _ (localEffect_withScript m l)]
      exact ih _
    | op o =>
      rw [runAll, State.whileBusy_withScript m s _ fun u => by
        rw [opEffect_withScript, State.withScript_bumpUpc]]
      exact ih _
    | wait =>
      rw [runAll, runAll, State.withScript_regs]
      split
      · simp only [State.withScript_wait, thenRun_assoc, thenRun_next, ih]
      · exact ih _

/-- What is left of a command does not depend on the script. -/
theorem restOf_withScript (items : List Item) (s : State) :
    restOf items (s.withScript m) = thenRun (restOf items s) fun t => .next (t.withScript m) := by
  simp only [restOf, State.withScript_spinOn, thenRun_assoc, thenRun_next]
  exact thenRun_congr _ _ _ fun u _ => runAll_withScript m _ u

end

end Sys2Proof.Machine
end

section
/-! SUPPORT. A stopped command is the same program still (10_state.md R50, 20_memory.md R82), and ends as if
undisturbed. -/

namespace Sys2Proof.Machine

/-- While it runs, a command keeps the copy of the staging registers made at its acceptance (R82). -/
theorem State.resume_staged (s t : State) (h : s.resume = .next t) (hb : t.regs.busy = true) :
    t.ctl.staged = s.ctl.staged := by
  have hsame : ∀ u v : State, u.SameButTime v →
      v.regs.busy = true → u.regs.busy = true ∧ v.ctl.staged = u.ctl.staged :=
    fun u v hs hv => ⟨by rw [← hs.regs]; exact hv, by rw [hs.ctl]⟩
  have hrel : t.regs.busy = true → s.regs.busy = true ∧ t.ctl.staged = s.ctl.staged :=
    runFrom_rel (fun u v => v.regs.busy = true → u.regs.busy = true ∧ v.ctl.staged = u.ctl.staged)
      (fun _ hu => ⟨hu, rfl⟩)
      (fun _ _ _ h k hv => ⟨(h (k hv).1).1, (k hv).2.trans (h (k hv).1).2⟩) _
      (fun l _ u hu => ⟨(localEffect_runKeeps l u).busy hu, (localEffect_samePlace l u hu).staged⟩)
      (fun o _ u hu => ⟨(opEffect_runKeeps o u).busy hu, (opEffect_samePlace o u hu).staged⟩)
      (fun u => hsame _ _ u.bumpUpc_same) (fun u v hw => hsame _ _ (u.waitStart_same v hw))
      (fun u v hr => hsame _ _ (u.spinRead_same v hr)) s t h
  exact (hrel hb).2

/-- A program is made of the parameters, CREATE's of the staging copy, the others of the slots (R82). -/
theorem programOf_congr (i : Instr) (s t : State) (hp : t.params = s.params)
    (hstaged : t.ctl.staged = s.ctl.staged)
    (hslots : (∀ p, i ≠ .create p) → ∀ j, t.slotAt j = s.slotAt j) : programOf i t = programOf i s := by
  cases i
  case nop => rfl
  case create p => simp only [programOf, createProgram, withSlot, State.creating, hp, hstaged]
  all_goals
    have hs := hslots fun _ h => by cases h
    simp only [programOf, releaseProgram, wrdataProgram, wrcmdProgram, rddataProgram, rdregProgram,
      withSlot, hp, hs]

/-- RELEASE is one step: it stops before it or not at all (R138). -/
theorem runFrom_release_stopped (p : Nat) (s t : State) (hupc : s.ctl.upc = 0) (hx : s.ctl.spin = none)
    (h : runFrom (programOf (.release p) s) s = .next t) (hb : t.regs.busy = true) : t = s := by
  rw [runFrom, State.spinOn_of_spin_none _ hx, thenRun_next, hupc, dropOps_zero] at h
  split at h
  · cases h; rfl
  · have hidle : t.regs.busy = false := by
      simp only [programOf, releaseProgram, withSlot] at h
      split at h
      · exact run_finishOnly_idle _ _ _ h
      · split at h
        · rw [run_loc] at h
          exact run_finishOnly_idle _ _ _ h
        · exact run_finishOnly_idle _ _ _ h
    rw [hidle] at hb; cases hb

/-- The program of a stopped command is the one it started with. -/
theorem programOf_stopped (i : Instr) (s t : State) (hi : decode s.regs.cmd = .ok i)
    (hupc : s.ctl.upc = 0) (hx : s.ctl.spin = none) (h : s.resume = .next t)
    (hb : t.regs.busy = true) : programOf i t = programOf i s := by
  refine programOf_congr i s t (State.resume_runKeeps s t h).params (s.resume_staged t h hb) ?_
  intro hcreate j
  rcases State.resume_slotKept s t j h with hsame | hc | ⟨hc, _⟩
  · exact hsame
  · rw [hi] at hc; cases hc; exact absurd rfl (hcreate j)
  · rw [hi] at hc; cases hc
    rw [State.resume, State.running_of_decode s _ hi] at h
    rw [runFrom_release_stopped j s t hupc hx h hb]

/-- Settles O51: what is left of the same program, the script apart, is what the whole of it comes to. -/
theorem resumedCommandEndsAsIfUndisturbed : Obligations.ResumedCommandEndsAsIfUndisturbed := by
  intro i s t script _ hi h hb
  have hi' : decode (s.withScript script).begin.regs.cmd = .ok i := hi
  have hresume : (s.withScript script).begin.resume = .next t := by
    rw [State.resume, State.running_of_decode _ i hi', ← exec_eq_runFrom]
    exact h
  have hprog : programOf i t = programOf i (s.withScript script).begin :=
    programOf_stopped i _ t hi' rfl rfl hresume hb
  have hit : decode (t.withScript []).regs.cmd = .ok i := by
    rw [State.withScript_regs, (State.resume_runKeeps _ t hresume).cmd]
    exact hi
  have hrest : restOf (programOf i t) t = restOf (programOf i t) (s.withScript script).begin := by
    rw [State.resume, State.running_of_decode _ i hi', ← hprog] at hresume
    exact runFrom_stopped _ (programOf_endsInFinish i t) _ t rfl rfl hresume hb
  calc step (t.withScript [])
      = (t.withScript []).resume := step_of_not_due _ hb (State.due_of_no_moves rfl)
    _ = restOf (programOf i t) (t.withScript []) := by
        rw [State.resume, State.running_of_decode _ i hit, runFrom_of_no_moves _ _ rfl,
          programOf_congr i t (t.withScript []) rfl rfl fun _ _ => rfl]
    _ = restOf (programOf i t) ((s.withScript script).begin.withScript []) := by
        rw [restOf_withScript, hrest, ← restOf_withScript]
    _ = exec i (s.withScript []) := by
        rw [hprog, exec_eq_runFrom, runFrom_of_no_moves _ _ rfl]
        rfl

end Sys2Proof.Machine
end

section
/-! SUPPORT. The fields of a word, the rows of the decoder (30_encoding.md R100-R104), and the statements
they settle. -/

namespace Sys2Proof

open Sys2Proof.Laws.OpField

/-! ## The fields of a word -/

theorem wordProf_lt (w : Word) : wordProf w < 16 := (w.extractLsb' 4 4).isLt

theorem wordCount_lt (w : Word) : wordCount w < 65536 := (w.extractLsb' 16 16).isLt

section
variable (n : Nat) (imm : Byte) (p : Nat) (op : BitVec 4)

/-- The four fields stand side by side (R100). -/
theorem formatC_eq_append :
    formatC n imm p op = BitVec.ofNat 16 n ++ imm ++ BitVec.ofNat 4 p ++ op := by
  rw [← BitVec.setWidth_eq (BitVec.ofNat 16 n ++ imm ++ BitVec.ofNat 4 p ++ op),
    BitVec.setWidth_append_append_append_eq_shiftLeft_setWidth_or, formatC]

theorem wordProf_formatC (hp : p < 16) : wordProf (formatC n imm p op) = p := by
  have hfield : (formatC n imm p op).extractLsb' 4 4 = BitVec.ofNat 4 p := by
    rw [formatC_eq_append, BitVec.extractLsb'_append_eq_of_le (Nat.le_refl 4)]
    exact BitVec.extractLsb'_append_eq_right
  rw [wordProf, hfield, BitVec.toNat_ofNat, Nat.mod_eq_of_lt hp]

theorem wordImm_formatC : wordImm (formatC n imm p op) = imm := by
  rw [wordImm, formatC_eq_append, BitVec.extractLsb'_append_eq_of_le (by decide),
    BitVec.extractLsb'_append_eq_of_le (by decide)]
  exact BitVec.extractLsb'_append_eq_right

theorem wordCount_formatC (hn : n < 65536) : wordCount (formatC n imm p op) = n := by
  have hfield : (formatC n imm p op).extractLsb' 16 16 = BitVec.ofNat 16 n := by
    rw [formatC_eq_append, BitVec.extractLsb'_append_eq_of_le (by decide),
      BitVec.extractLsb'_append_eq_of_le (by decide)]
    exact BitVec.extractLsb'_append_eq_left
  rw [wordCount, hfield, BitVec.toNat_ofNat, Nat.mod_eq_of_lt hn]

end

/-! ## What the decoder can answer -/

theorem decode_of_op_zero {w : Word} (h : (wordOp w).toNat = 0) : decode w = .ok .nop := by
  simp only [decode, h]

theorem decode_of_op_illegal {w : Word} (h : 7 ≤ (wordOp w).toNat) :
    decode w = .error (.illegalOp (wordOp w)) := by
  unfold decode
  split
  case h_8 => rfl
  all_goals omega

/-- Each legal OP selects a row with that OP, and what is cut from the word fits the row's fields. -/
theorem decode_of_op_legal {w : Word} (h : (wordOp w).toNat < 7) :
    ∃ i, decode w = .ok i ∧ i.wf = true ∧ opcode i = (wordOp w).toNat := by
  interval_cases hop : (wordOp w).toNat <;>
    simp [decode, hop, Instr.wf, opcode, wordProf_lt, wordCount_lt]

theorem wordOp_encode_toNat (i : Instr) : (wordOp (encode i)).toNat = opcode i := by
  cases i with
  | nop => exact nop
  | create p => exact create p
  | release p => exact release p
  | wrdata p n => exact wrdata p n
  | wrcmd p imm => exact wrcmd p imm
  | rddata p n => exact rddata p n
  | rdreg p => exact rdreg p

/-- Settles O2: the rows are told apart by OP alone, and operands cut from a word fit their fields. -/
theorem everyWordIsOneRowOrIllegal : Obligations.EveryWordIsOneRowOrIllegal := by
  intro w
  refine ⟨fun hlegal => ?_, decode_of_op_illegal⟩
  obtain ⟨i, hi, hwf, hop⟩ := decode_of_op_legal hlegal
  exact ⟨i, hi, hwf, BitVec.eq_of_toNat_eq ((wordOp_encode_toNat i).trans hop)⟩

/-! ## The opcode map (R102) -/

section
variable {n p : Nat} (imm : Byte)

theorem decode_formatC_nop : decode (formatC n imm p 0x0) = .ok .nop :=
  decode_of_op_zero (by rw [wordOp_formatC]; rfl)

theorem decode_formatC_create (hp : p < 16) : decode (formatC n imm p 0x1) = .ok (.create p) := by
  simp [decode, wordOp_formatC, wordProf_formatC _ _ _ _ hp]

theorem decode_formatC_release (hp : p < 16) : decode (formatC n imm p 0x2) = .ok (.release p) := by
  simp [decode, wordOp_formatC, wordProf_formatC _ _ _ _ hp]

theorem decode_formatC_wrdata (hn : n < 65536) (hp : p < 16) :
    decode (formatC n imm p 0x3) = .ok (.wrdata p n) := by
  simp [decode, wordOp_formatC, wordProf_formatC _ _ _ _ hp, wordCount_formatC _ _ _ _ hn]

theorem decode_formatC_wrcmd (hp : p < 16) : decode (formatC n imm p 0x4) = .ok (.wrcmd p imm) := by
  simp [decode, wordOp_formatC, wordProf_formatC _ _ _ _ hp, wordImm_formatC]

theorem decode_formatC_rddata (hn : n < 65536) (hp : p < 16) :
    decode (formatC n imm p 0x5) = .ok (.rddata p n) := by
  simp [decode, wordOp_formatC, wordProf_formatC _ _ _ _ hp, wordCount_formatC _ _ _ _ hn]

theorem decode_formatC_rdreg (hp : p < 16) : decode (formatC n imm p 0x6) = .ok (.rdreg p) := by
  simp [decode, wordOp_formatC, wordProf_formatC _ _ _ _ hp]

theorem decode_formatC_illegal {op : BitVec 4} (h : 7 ≤ op.toNat) :
    decode (formatC n imm p op) = .error (.illegalOp op) := by
  have hop := wordOp_formatC n imm p op
  rw [decode_of_op_illegal (by rwa [hop]), hop]

end

/-- Settles O3, row by row. -/
theorem opcodeMapIgnoresUnusedFields : Obligations.OpcodeMapIgnoresUnusedFields :=
  fun _ imm _ hn hp => ⟨decode_formatC_nop imm, decode_formatC_create imm hp,
    decode_formatC_release imm hp, decode_formatC_wrdata imm hn hp, decode_formatC_wrcmd imm hp,
    decode_formatC_rddata imm hn hp, decode_formatC_rdreg imm hp, fun _ => decode_formatC_illegal imm⟩

/-- Settles O1: an encoded word is its row of the opcode map, the fields it does not use being 0. -/
theorem decodeInvertsEncode : Obligations.DecodeInvertsEncode := by
  intro i hwf
  cases i <;> simp only [Instr.wf, Bool.and_eq_true, decide_eq_true_eq] at hwf
  case nop => exact decode_formatC_nop 0
  case create p => exact decode_formatC_create 0 hwf
  case release p => exact decode_formatC_release 0 hwf
  case wrdata p n =>
    obtain ⟨hp, hn⟩ := hwf
    exact decode_formatC_wrdata 0 hn hp
  case wrcmd p imm => exact decode_formatC_wrcmd imm hwf
  case rddata p n =>
    obtain ⟨hp, hn⟩ := hwf
    exact decode_formatC_rddata 0 hn hp
  case rdreg p => exact decode_formatC_rdreg 0 hwf

/-- Settles O4: each word is written out as its fields, NOP's and RELEASE's with values in fields they do
not use. -/
theorem workedEncodingsDecode : Obligations.WorkedEncodingsDecode :=
  ⟨decode_formatC_wrcmd (n := 0) (p := 0) 0xA5 (by decide),
    decode_formatC_wrdata (n := 2) (p := 1) 0 (by decide) (by decide),
    decode_formatC_rddata (n := 3) (p := 0) 0 (by decide) (by decide),
    decode_formatC_rdreg (n := 0) (p := 2) 0 (by decide),
    decode_formatC_create (n := 0) (p := 3) 0 (by decide),
    decode_formatC_nop (n := 0x1234) (p := 7) 0x56,
    decode_formatC_illegal (n := 0) (p := 0) 0 (op := 7) (by decide),
    decode_formatC_release (n := 0) (p := 1) 0xFF (by decide)⟩

end Sys2Proof
end

section
/-! SUPPORT. Illegal words and illegal slots (30_encoding.md R104, R105): ILLEGAL_COMMAND and nothing else. -/

namespace Sys2Proof.Machine

theorem withSlot_of_no_slot {p : Nat} {s : State} (h : s.params.numProfiles ≤ p) (items : List Item) :
    withSlot p s items = finishOnly .illegalCommand :=
  if_pos h

theorem execIllegal_of_quiet (s : State) (h : s.quiet 1 = true) :
    execIllegal s = .next (s.finish .illegalCommand) :=
  s.launch_finishOnly .illegalCommand h

theorem exec_of_finishOnly (i : Instr) (s : State) (c : Result) (h : s.quiet 1 = true)
    (hprog : programOf i s.begin = finishOnly c) : exec i s = .next (s.finish c) := by
  rw [exec_eq_runFrom, hprog, ← State.launch_eq_runFrom, s.launch_finishOnly c h]

/-- PROF names no slot: the check comes before every other of the six commands (R105, R252). -/
theorem programOf_of_no_slot {s : State} {p : Nat} (h : s.params.numProfiles ≤ p) (n : Nat) (imm : Byte)
    (i : Instr) (hi : i = .create p ∨ i = .release p ∨ i = .wrdata p n ∨ i = .wrcmd p imm ∨
      i = .rddata p n ∨ i = .rdreg p) : programOf i s = finishOnly .illegalCommand := by
  rcases hi with rfl | rfl | rfl | rfl | rfl | rfl <;> exact withSlot_of_no_slot h _

theorem step_of_lands_illegal {s : State} {w : Word} {rest : List HostMove} {e : Reject}
    (hl : s.lands (.write 32 0 w) rest) (hb : s.regs.busy = false) (hw : decode w = .error e)
    (hq : (s.withScript rest).quiet 1 = true) :
    step s = .next (((s.withScript rest).accept w).finish .illegalCommand) := by
  rw [step_of_lands_accepted hl hb, State.resume_accept_of_reject _ w e hw]
  exact execIllegal_of_quiet _ hq

/-- Settles O7: in each case the program is the one micro-operation `finish`, or NOP's row is found by OP
alone. -/
theorem illegalCommandsChangeOnlyStatus : Obligations.IllegalCommandsChangeOnlyStatus := by
  refine ⟨fun s w rest hb hl hop hq => ?_, fun s p n imm hp hq i hi => ?_, fun w => decode_of_op_zero⟩
  · exact step_of_lands_illegal hl hb (decode_of_op_illegal hop) hq
  · exact exec_of_finishOnly i s _ hq (programOf_of_no_slot (s := s.begin) hp n imm i hi)

end Sys2Proof.Machine
end

section
/-! SUPPORT. A command left undisturbed, from its program (60_exceptions.md R252, R256): the checks it passes, and
what its port operations leave of the state. -/

namespace Sys2Proof.Machine

/-! ## Quiet -/

theorem State.quiet_of_le {s : State} {j k : Nat} (hjk : j ≤ k) (h : s.quiet k = true) :
    s.quiet j = true := by
  unfold State.quiet at h ⊢
  split
  · rfl
  · next m r hs =>
    rw [hs] at h
    exact decide_eq_true (hjk.trans (of_decide_eq_true h))

/-- A command that makes no WAIT and that no host move lands in is its lines and then its `finish`. -/
theorem exec_of_quiet (i : Instr) (s : State) (xs : List Item) (c : Result)
    (hprog : programOf i s.begin = xs ++ [.op (.finish c)]) (hwaits : countWaits xs = 0)
    (h : s.quiet (countOps xs + 1) = true) :
    exec i s = thenRun (runAll xs s.begin) fun t => .next (t.whileBusy (State.finish · c)) := by
  rw [exec_eq_runFrom, hprog, ← State.launch_eq_runFrom]
  exact s.launch_finish xs c (by rw [State.quietFor, hwaits]; exact h)

/-- An idle sequencer runs no line (R13). -/
theorem runAll_idle (items : List Item) (s : State) (hb : s.regs.busy = false) :
    runAll items s = .next s := by
  induction items with
  | nil => rfl
  | cons x r ih =>
    cases x with
    | loc l => rw [runAll, State.whileBusy_idle s _ hb, ih]
    | op o => rw [runAll, State.whileBusy_idle s _ hb, ih]
    | wait => rw [runAll, hb, ih]; rfl

theorem runAll_loc (l : Local) (r : List Item) (s : State) (hb : s.regs.busy = true) :
    runAll (.loc l :: r) s = runAll r (localEffect l s) := by
  rw [runAll, State.whileBusy_busy s _ hb]

/-! ## The slot checks -/

theorem withSlot_of_slot {p : Nat} {s : State} (h : p < s.params.numProfiles) (items : List Item) :
    withSlot p s items = items :=
  if_neg (Nat.not_le.2 h)

/-- Every command on a slot but CREATE checks its valid bit, before its other checks (R252). -/
theorem programOf_of_not_valid {s : State} {p : Nat} (hp : p < s.params.numProfiles)
    (hv : (s.slotAt p).valid = false) (n : Nat) (imm : Byte) (i : Instr) (hi : i = .release p ∨
      i = .wrdata p n ∨ i = .wrcmd p imm ∨ i = .rddata p n ∨ i = .rdreg p) :
    programOf i s = finishOnly .noProfile := by
  have hnot : ¬ (s.slotAt p).valid = true := by rw [hv]; exact Bool.false_ne_true
  rcases hi with rfl | rfl | rfl | rfl | rfl <;> exact (withSlot_of_slot hp _).trans (if_neg hnot)

theorem State.slotAt_setSlot_same (s : State) (p : Nat) (q : Slot) (h : p < s.slots.length) :
    (s.setSlot p q).slotAt p = q := by
  simp [State.slotAt, h]

/-! ## What a program logs -/

theorem Port.after_append (x : Port) (l m : List Txn) : x.after (l ++ m) = (x.after l).after m := by
  simp [Port.after, List.foldl_append]

/-- The items, left undisturbed, make the transactions `tx` and change nothing else but the position in the
program (R160-R165). -/
def Emits (items : List Item) (tx : List Txn) : Prop :=
  ∀ s : State, s.regs.busy = true → ∃ u n, runAll items s =
    .next { s with port := s.port.after tx, ctl := { s.ctl with upc := u, steps := n } }

theorem Emits.nil : Emits [] [] := fun s _ => ⟨s.ctl.upc, s.ctl.steps, by simp [runAll, Port.after]⟩

theorem Emits.op {o : Op} {x : Txn} (h : ∀ s, opEffect o s = { s with port := s.port.after [x] }) :
    Emits [.op o] [x] := by
  intro s hb
  obtain ⟨u, n, hbump⟩ := (opEffect o s).bumpUpc_eq
  refine ⟨u, n, ?_⟩
  rw [runAll, State.whileBusy_busy s _ hb, hbump, h, runAll]

theorem Emits.append {xs ys : List Item} {tx ty : List Txn} (hx : Emits xs tx) (hy : Emits ys ty) :
    Emits (xs ++ ys) (tx ++ ty) := by
  intro s hb
  obtain ⟨_, _, hxs⟩ := hx s hb
  obtain ⟨u, n, hys⟩ := hy { s with port := s.port.after tx, ctl := _ } hb
  refine ⟨u, n, ?_⟩
  rw [runAll_append, hxs, thenRun_next, hys, Port.after_append]

theorem emits_mode (m : Word) (d : PinMode) : Emits [.op (.mode m d)] [.mode m d] :=
  .op fun _ => by cases d <;> rfl

theorem emits_clr (m : Word) : Emits [.op (.clr m)] [.clr m] := .op fun _ => rfl

theorem emits_set (m : Word) : Emits [.op (.set m)] [.set m] := .op fun _ => rfl

theorem driveItems_emits (p : Pin) (l : Bool) : Emits (driveItems p l) (driveTrace p l) := by
  cases p with
  | none => exact .nil
  | some i =>
    cases l with
    | false => exact emits_clr _
    | true => exact emits_set _

theorem countOps_driveItems_le (p : Pin) (l : Bool) : countOps (driveItems p l) ≤ 1 := by
  cases p with
  | none => exact Nat.zero_le 1
  | some i => cases l <;> exact Nat.le_refl 1

theorem countWaits_driveItems (p : Pin) (l : Bool) : countWaits (driveItems p l) = 0 := by
  cases p with
  | none => rfl
  | some i => cases l <;> rfl

end Sys2Proof.Machine
end

section
/-! SUPPORT. NOP, pins as signed numbers, CREATE and RELEASE (40_profile.md R130, R133, R134, R138). -/

namespace Sys2Proof.Machine

/-! ## NOP -/

theorem HostRegs.status_eq_zero {r : HostRegs} (hb : r.busy = false) (hl : r.lost = false)
    (hr : r.result = .ok) : r.status = 0 := by
  rw [HostRegs.status, hb, hl, hr]
  rfl

/-- Settles O18: NOP's program is the one micro-operation `finish`, and STATUS is then 0 in every field. -/
theorem nopFinishesOk : Obligations.NopFinishesOk := by
  refine ⟨fun s hq => exec_of_finishOnly .nop s .ok hq rfl, fun s w rest hb hl hop hq => ?_⟩
  have hstep : step s = .next (((s.withScript rest).accept w).finish .ok) := by
    rw [step_of_lands_accepted hl hb, State.resume_accept_of_decode _ w _ (decode_of_op_zero hop)]
    exact exec_of_finishOnly .nop _ .ok hq rfl
  exact ⟨_, hstep, HostRegs.status_eq_zero rfl rfl rfl, rfl⟩

/-! ## Pins -/

theorem normPin_eq_some_iff (v : Word) (i : Fin 28) : normPin v = some i ↔ v.toInt = (i.val : Int) := by
  have hi := i.isLt
  unfold normPin
  split
  · rw [Option.some.injEq, Fin.ext_iff]
    dsimp only
    omega
  · simp only [reduceCtorEq, false_iff]
    omega

theorem normPin_eq_none_iff (v : Word) : normPin v = none ↔ v.toInt < 0 ∨ 27 < v.toInt := by
  unfold normPin
  split
  · simp only [reduceCtorEq, false_iff]
    omega
  · simp only [true_iff]
    omega

/-- Settles O19: both ranges of R134, read off the signed value. -/
theorem pinsAreNormalisedAsSignedNumbers : Obligations.PinsAreNormalisedAsSignedNumbers :=
  fun v => ⟨normPin_eq_some_iff v, normPin_eq_none_iff v⟩

/-! ## CREATE -/

/-- The port operations of CREATE: the strobe and the direction line idle, then the modes (R133). -/
def createLines (par : Config.Params) (q : Slot) : List Item :=
  driveItems q.wstb q.nLvl ++ driveItems q.rwrd (q.hostLvl par)
    ++ ([.op (.mode q.ctrlMask .output)] ++ [.op (.mode q.dataMask .input)])

theorem createItems_eq (par : Config.Params) (p : Nat) (q : Slot) : createItems par p q =
    (.loc .needGpio :: .loc (.latch p q) :: createLines par q) ++ [.op (.finish .ok)] := by
  simp [createItems, createLines]

theorem createLines_emits (par : Config.Params) (q : Slot) :
    Emits (createLines par q) (createTrace par q) :=
  ((driveItems_emits _ _).append (driveItems_emits _ _)).append ((emits_mode _ _).append (emits_mode _ _))

theorem countOps_createLines_le (par : Config.Params) (q : Slot) : countOps (createLines par q) ≤ 4 := by
  have hstrobe := countOps_driveItems_le q.wstb q.nLvl
  have hdir := countOps_driveItems_le q.rwrd (q.hostLvl par)
  simp only [createLines, countOps_append, countOps]
  omega

theorem countWaits_createLines (par : Config.Params) (q : Slot) : countWaits (createLines par q) = 0 := by
  simp [createLines, countWaits_append, countWaits_driveItems, countWaits]

theorem State.needGpio_of_avail {s : State} (h : s.env.avail.value Config.gpioAvail = true) :
    s.needGpio = { s with env := { s.env with avail := s.env.avail.rest } } :=
  if_pos h

theorem State.needGpio_of_unavail {s : State} (h : s.env.avail.value Config.gpioAvail = false) :
    s.needGpio =
      ({ s with env := { s.env with avail := s.env.avail.rest } } : State).finish .deviceUnavailable :=
  if_neg (by rw [h]; exact Bool.false_ne_true)

section
variable {s : State} {p : Nat} (hp : p < s.params.numProfiles) (hq : s.quiet 5 = true)
include hp hq

/-- CREATE of a slot that exists samples `gpio_avail`, then latches, then drives the port (R133). -/
theorem exec_create_eq : exec (.create p) s =
    thenRun (runAll (.loc (.latch p s.regs.staging.profile) :: createLines s.params s.regs.staging.profile)
      s.begin.needGpio) fun t => .next (t.whileBusy (State.finish · .ok)) := by
  have hprog : programOf (.create p) s.begin = (.loc .needGpio :: .loc (.latch p s.regs.staging.profile) ::
      createLines s.params s.regs.staging.profile) ++ [.op (.finish .ok)] :=
    (withSlot_of_slot (s := s.begin) hp _).trans (createItems_eq ..)
  have hops := countOps_createLines_le s.params s.regs.staging.profile
  rw [exec_of_quiet _ s _ _ hprog (countWaits_createLines ..)
    (State.quiet_of_le (by simp only [countOps]; omega) hq), runAll_loc _ _ _ rfl]
  rfl

theorem exec_create_of_unavail (h : s.env.avail.value Config.gpioAvail = false) : exec (.create p) s =
    .next (({ s with env := { s.env with avail := s.env.avail.rest } } : State).finish .deviceUnavailable) := by
  rw [exec_create_eq hp hq, State.needGpio_of_unavail (s := s.begin) h, runAll_idle _ _ rfl, thenRun_next,
    State.whileBusy_idle _ _ rfl]
  rfl

theorem exec_create_of_avail (h : s.env.avail.value Config.gpioAvail = true) : exec (.create p) s =
    .next (({ s.setSlot p s.regs.staging.profile with
      port := s.port.after (createTrace s.params s.regs.staging.profile)
      env := { s.env with avail := s.env.avail.rest } } : State).finish .ok) := by
  rw [exec_create_eq hp hq, State.needGpio_of_avail (s := s.begin) h, runAll_loc _ _ _ rfl]
  obtain ⟨u, n, hlines⟩ := createLines_emits s.params s.regs.staging.profile (localEffect
    (.latch p s.regs.staging.profile) { s.begin with env := { s.env with avail := s.env.avail.rest } }) rfl
  exact (congrArg (thenRun · _) hlines).trans (congrArg _ (State.whileBusy_busy _ _ rfl))

end

/-- Settles O20: PROF is checked first, then `gpio_avail`; what is left of the program writes the slot and
then the port. -/
theorem createLatchesTheStagedProfile : Obligations.CreateLatchesTheStagedProfile := by
  intro s p q hlen hq hprofile
  subst hprofile
  refine ⟨fun hp => ?_, fun hp havail => ?_, fun hp havail => exec_create_of_unavail hp hq havail⟩
  · exact exec_of_finishOnly _ s _ (State.quiet_of_le (by decide) hq)
      (withSlot_of_no_slot (s := s.begin) hp _)
  · exact ⟨_, exec_create_of_avail hp hq havail, s.slotAt_setSlot_same p _ (hlen ▸ hp),
      fun j hj => s.slotAt_setSlot_other p j _ hj.symm, rfl⟩

/-! ## RELEASE -/

theorem exec_release_of_valid {s : State} {p : Nat} (hp : p < s.params.numProfiles)
    (hv : (s.slotAt p).valid = true) (hq : s.quiet 1 = true) :
    exec (.release p) s = .next ((s.invalidate p).finish .ok) := by
  have hprog : programOf (.release p) s.begin = [.loc (.invalidate p)] ++ [.op (.finish .ok)] :=
    (withSlot_of_slot (s := s.begin) hp _).trans (if_pos hv)
  rw [exec_of_quiet _ s _ _ hprog rfl hq, runAll_loc _ _ _ rfl, runAll, thenRun_next,
    State.whileBusy_busy _ _ rfl]
  rfl

theorem exec_of_not_valid {s : State} {p : Nat} (hp : p < s.params.numProfiles)
    (hv : (s.slotAt p).valid = false) (hq : s.quiet 1 = true) (n : Nat) (imm : Byte) (i : Instr)
    (hi : i = .release p ∨ i = .wrdata p n ∨ i = .wrcmd p imm ∨ i = .rddata p n ∨ i = .rdreg p) :
    exec i s = .next (s.finish .noProfile) :=
  exec_of_finishOnly i s _ hq (programOf_of_not_valid (s := s.begin) hp hv n imm i hi)

/-- Settles O21: a slot released is a slot not valid, and RELEASE's own checks are those of the commands that
come after it. -/
theorem releaseInvalidatesTheSlot : Obligations.ReleaseInvalidatesTheSlot := by
  intro s p hlen hq
  refine ⟨fun hp => ?_, fun hp hv => ?_, fun hp hv => exec_of_not_valid hp hv hq 0 0 _ (.inl rfl)⟩
  · exact exec_of_finishOnly _ s _ hq (withSlot_of_no_slot (s := s.begin) hp _)
  · have hslot : ((s.invalidate p).finish .ok).slotAt p = { s.slotAt p with valid := false } :=
      s.slotAt_setSlot_same p _ (hlen ▸ hp)
    have hinvalid : (((s.invalidate p).finish .ok).slotAt p).valid = false := by rw [hslot]
    exact ⟨_, exec_release_of_valid hp hv hq, hslot, fun j hj => s.slotAt_setSlot_other p j _ hj.symm, rfl,
      exec_of_not_valid hp hinvalid hq⟩

end Sys2Proof.Machine
end

section
/-! SUPPORT. What a WAIT comes to: where its spin ends, what its end leaves, when it is refused, and its
steps one by one (41_timeline.md R166, R171, R172, R176, R177). -/

namespace Sys2Proof.Machine

/-! ## Where a spin ends -/

theorem le_spinEnd (d n now : Nat) (e : Draws Nat) : d ≤ (spinEnd d n now e).1 := by
  induction n generalizing now e with
  | zero => exact le_max_right _ _
  | succ n ih =>
    rw [spinEnd]
    split
    · assumption
    · exact ih _ _

/-- A spin ends at its deadline at the latest, or later by no more than the times between its reads. -/
theorem spinEnd_le (d n now : Nat) (e : Draws Nat) :
    (spinEnd d n now e).1 ≤ max now d + elapsedAhead (n + 1) e := by
  induction n generalizing now e with
  | zero =>
    simp only [spinEnd, elapsedAhead]
    omega
  | succ n ih =>
    have hrest := ih (now + e.value Config.elapsed) e.rest
    rw [spinEnd, elapsedAhead]
    split
    · dsimp only
      omega
    · omega

theorem elapsedAhead_le_of_le {j k : Nat} (hjk : j ≤ k) (d : Draws Nat) :
    elapsedAhead j d ≤ elapsedAhead k d := by
  induction j generalizing k d with
  | zero => exact Nat.zero_le _
  | succ j ih =>
    obtain ⟨k, rfl⟩ := Nat.exists_eq_succ_of_ne_zero (show k ≠ 0 by omega)
    exact Nat.add_le_add_left (ih (by omega) _) _

/-! ## The deadline and the end of a WAIT -/

theorem State.waitDeadline_of_le {s : State} {now : Nat}
    (h : now ≤ s.tl.sched.toNat + s.tl.timing.toNat) :
    s.waitDeadline now = s.tl.sched.toNat + s.tl.timing.toNat :=
  if_neg h.not_gt

theorem State.waitDeadline_of_overrun_immediate {s : State} {now : Nat}
    (hmode : s.params.resyncMode = .immediate) (h : s.tl.sched.toNat + s.tl.timing.toNat < now) :
    s.waitDeadline now = now := by
  rw [State.waitDeadline, if_pos h, hmode]

theorem State.waitDeadline_of_overrun_rewait {s : State} {now : Nat}
    (hmode : s.params.resyncMode = .rewait) (h : s.tl.sched.toNat + s.tl.timing.toNat < now) :
    s.waitDeadline now = now + s.tl.timing.toNat := by
  rw [State.waitDeadline, if_pos h, hmode]

theorem State.waitDeadline_le (s : State) (now : Nat) :
    s.waitDeadline now ≤ max s.tl.sched.toNat now + s.tl.timing.toNat := by
  rw [State.waitDeadline]
  split
  · split <;> omega
  · omega

theorem State.waitEnd_of_le {s : State} {now : Nat} (h : s.waitDeadline now ≤ now) :
    s.waitEnd now = now :=
  if_pos h

theorem State.waitDeadline_le_waitEnd (s : State) (now : Nat) : s.waitDeadline now ≤ s.waitEnd now := by
  rw [State.waitEnd]
  split
  · assumption
  · exact le_spinEnd _ _ _ _

theorem State.waitEnd_le (s : State) (now : Nat) :
    s.waitEnd now ≤ max now (s.waitDeadline now) +
      elapsedAhead (s.env.spins.value Config.spins + 1) s.env.elapsed.rest := by
  rw [State.waitEnd]
  split
  · omega
  · exact spinEnd_le _ _ _ _

/-! ## What an undisturbed WAIT leaves -/

/-- `tl.sched` is the deadline, the timebase is where the spin ended, and nothing else moved but the position
and the supplies of time (R171, R172). -/
theorem State.wait_next {s t : State} {now : Nat} (hn : now = s.mono.toNat + s.nextElapsed)
    (h : s.wait = .next t) :
    t.tl.sched.toNat = s.waitDeadline now ∧ t.mono.toNat = s.waitEnd now ∧
    t = { s with
      tl := ⟨t.tl.sched, s.tl.timing⟩
      mono := t.mono
      ctl := { s.ctl with upc := t.ctl.upc, steps := t.ctl.steps, spin := none }
      env := { s.env with elapsed := t.env.elapsed, spins := t.env.spins } } := by
  obtain ⟨upc, steps, hw⟩ := s.wait_eq now hn
  rw [hw] at h
  split at h
  · next hlim =>
    obtain ⟨_, _, hdeadline, hend⟩ := hlim
    cases h
    exact ⟨toNat_ofNat_time _ hdeadline, toNat_ofNat_time _ hend, rfl⟩
  · cases h

/-- Without an overrun both modes are one rule: the WAIT works to its deadline, and is there at once where
its first read is (R171, R172). -/
theorem State.wait_next_of_le {s t : State} {now : Nat} (hn : now = s.mono.toNat + s.nextElapsed)
    (h : s.wait = .next t) (hle : now ≤ s.tl.sched.toNat + s.tl.timing.toNat) :
    (t.tl.sched.toNat = s.tl.sched.toNat + s.tl.timing.toNat ∧
      s.tl.sched.toNat + s.tl.timing.toNat ≤ t.mono.toNat) ∧
    (now = s.tl.sched.toNat + s.tl.timing.toNat → t.mono.toNat = now) := by
  obtain ⟨hsched, hmono, _⟩ := State.wait_next hn h
  have hdeadline := State.waitDeadline_of_le hle
  refine ⟨⟨hsched.trans hdeadline, ?_⟩, fun heq => ?_⟩
  · rw [hmono, ← hdeadline]
    exact s.waitDeadline_le_waitEnd now
  · rw [hmono, State.waitEnd_of_le (by omega)]

/-- Settles O26: an overrun works to `now` itself, so there is nothing to spin for. -/
theorem waitImmediateRule : Obligations.WaitImmediateRule := by
  intro s t now deadline hmode hn hd h
  subst hd
  obtain ⟨hsched, hmono, hframe⟩ := State.wait_next hn h
  refine ⟨fun hover => ?_, fun hle => (State.wait_next_of_le hn h hle).1,
    fun heq => (State.wait_next_of_le hn h heq.le).2 heq, hframe⟩
  have hdeadline := State.waitDeadline_of_overrun_immediate hmode hover
  exact ⟨hsched.trans hdeadline, hmono.trans (State.waitEnd_of_le hdeadline.le)⟩

/-- Settles O27: an overrun works to an increment past `now`, and the spin ends at or past that. -/
theorem waitRewaitRule : Obligations.WaitRewaitRule := by
  intro s t now deadline hmode hn hd h
  subst hd
  obtain ⟨hsched, hmono, hframe⟩ := State.wait_next hn h
  refine ⟨fun hover => ⟨?_, ?_⟩, fun hle => (State.wait_next_of_le hn h hle).1,
    fun heq => (State.wait_next_of_le hn h heq.le).2 heq, hframe⟩
  · rw [hsched, State.waitDeadline_of_overrun_rewait hmode hover]
  · rw [hsched, hmono]
    exact s.waitDeadline_le_waitEnd now

/-! ## When a WAIT is refused -/

theorem State.mono_le_horizon (s : State) : s.mono.toNat ≤ s.horizon := by
  rw [State.horizon]
  split
  · exact le_rfl
  · exact le_max_left _ _

theorem State.timeRoom_iff (s : State) (w : Nat) :
    s.timeRoom w = true ↔ s.tl.sched.toNat ≤ s.mono.toNat ∧ s.spinOk = true ∧
      s.horizon + elapsedAhead (s.spinReads + w + spinsAhead w s.env.spins) s.env.elapsed + w * 2 ^ 32 <
        timeLimit := by
  simp only [State.timeRoom, Bool.and_eq_true, decide_eq_true_eq, and_assoc]

/-- Room for a WAIT keeps all four of its times in range, its spin's last read too (R177). -/
theorem State.wait_inRange_of_timeRoom {s : State} {w now : Nat} (hn : now = s.mono.toNat + s.nextElapsed)
    (h : s.timeRoom (w + 1) = true) :
    s.tl.sched.toNat + s.tl.timing.toNat < timeLimit ∧ now < timeLimit ∧
      s.waitDeadline now < timeLimit ∧ s.waitEnd now < timeLimit := by
  obtain ⟨hsched, _, hroom⟩ := (s.timeRoom_iff _).1 h
  rw [spinsAhead] at hroom
  have hreads : elapsedAhead (s.env.spins.value Config.spins + 2) s.env.elapsed ≤
      elapsedAhead (s.spinReads + (w + 1) +
        (s.env.spins.value Config.spins + 1 + spinsAhead w s.env.spins.rest)) s.env.elapsed :=
    elapsedAhead_le_of_le (by omega) _
  have hfirst : elapsedAhead (s.env.spins.value Config.spins + 2) s.env.elapsed =
      s.nextElapsed + elapsedAhead (s.env.spins.value Config.spins + 1) s.env.elapsed.rest := rfl
  have htiming : s.tl.timing.toNat < 2 ^ 32 := s.tl.timing.isLt
  have hhorizon := s.mono_le_horizon
  have hdeadline := s.waitDeadline_le now
  have hend := s.waitEnd_le now
  omega

/-- Settles O28: the four times of R177 are the test `wait_eq` makes. -/
theorem waitIsRefusedOnlyOutOfRange : Obligations.WaitIsRefusedOnlyOutOfRange := by
  intro s now hn
  obtain ⟨upc, steps, hw⟩ := s.wait_eq now hn
  refine ⟨fun hout => ?_, fun hsum hnow hdeadline hend => ?_, fun hroom => ?_⟩
  · rw [hw, if_neg (by omega)]
  · rw [hw, if_pos ⟨hsum, hnow, hdeadline, hend⟩]
    exact ⟨_, rfl, toNat_ofNat_time _ hend⟩
  · rw [hw, if_pos (State.wait_inRange_of_timeRoom hn hroom)]
    exact ⟨_, rfl⟩

/-! ## The steps of a WAIT, one read each -/

theorem State.started_of_deadline_le {s : State} {now : Nat} (h : s.waitDeadline now ≤ now) :
    (s.started now).ctl.spin = none ∧
      (s.started now).tl.sched = BitVec.ofNat 64 (s.waitDeadline now) := by
  simp [State.started, h.not_gt]

theorem State.started_of_lt_deadline {s : State} {now : Nat} (h : now < s.waitDeadline now) :
    (s.started now).ctl.spin =
      some ⟨BitVec.ofNat 64 (s.waitDeadline now), s.env.spins.value Config.spins⟩ ∧
    (s.started now).tl.sched =
      if s.tl.sched.toNat + s.tl.timing.toNat < now then BitVec.ofNat 64 now else s.tl.sched := by
  simp [State.started, h]

/-- The state after the last read of the spin `x`: at its deadline or past it, `tl.sched` committed
(R171, R176). -/
def State.lastRead (s : State) (x : Spin) : State :=
  { s with
    tl := ⟨x.deadline, s.tl.timing⟩
    mono := BitVec.ofNat 64 (max (s.mono.toNat + s.nextElapsed) x.deadline.toNat)
    ctl := { s.ctl with spin := none }
    env := { s.env with elapsed := s.env.elapsed.rest } }

/-- A read past the deadline, and the one fairness puts there, is the last of its spin (R171, R176, R177). -/
theorem State.spinRead_last {s : State} {x : Spin} (hx : s.ctl.spin = some x)
    (hlast : x.deadline.toNat ≤ s.mono.toNat + s.nextElapsed ∨ x.left = 0) :
    s.spinRead =
      if max (s.mono.toNat + s.nextElapsed) x.deadline.toNat < timeLimit then .next (s.lastRead x)
      else .refused .timeRange := by
  have hread : max (s.mono.toNat + s.nextElapsed) (if x.left = 0 then x.deadline.toNat else 0) =
      max (s.mono.toNat + s.nextElapsed) x.deadline.toNat := by
    split <;> omega
  simp only [State.spinRead, hx, State.clockFrom_eq, hread]
  by_cases hlim : max (s.mono.toNat + s.nextElapsed) x.deadline.toNat < timeLimit
  · simp only [hlim, if_true, toNat_ofNat_time _ hlim, le_max_right]
    simp [State.lastRead, State.setSched, State.setSpin, State.dropElapsed]
  · simp only [hlim, if_false]

/-- Settles O29: the first step is `started`, a further one `shortRead` or `lastRead`. -/
theorem waitTakesOneStepPerClockRead : Obligations.WaitTakesOneStepPerClockRead := by
  intro s t now hn
  refine ⟨fun h => ?_, fun x hx h => ⟨fun hshort hleft => ?_, fun hlast => ?_⟩⟩
  · rw [s.waitStart_eq now hn] at h
    split at h
    · next hlim =>
      obtain ⟨_, hnow, hdeadline⟩ := hlim
      cases h
      refine ⟨toNat_ofNat_time _ hnow, fun hle => ?_, fun hlt => ?_⟩
      · obtain ⟨hspin, hsched⟩ := State.started_of_deadline_le hle
        exact ⟨hspin, by rw [hsched, toNat_ofNat_time _ hdeadline]⟩
      · obtain ⟨hspin, hsched⟩ := State.started_of_lt_deadline hlt
        refine ⟨⟨_, hspin, toNat_ofNat_time _ hdeadline⟩, ?_⟩
        rw [hsched, apply_ite BitVec.toNat, toNat_ofNat_time _ hnow]
    · cases h
  · subst hn
    rw [s.spinRead_short x hx hleft hshort] at h
    cases h
    exact ⟨rfl, toNat_ofNat_time _ (hshort.trans x.deadline.isLt)⟩
  · subst hn
    rw [State.spinRead_last hx hlast] at h
    split at h
    · next hlim =>
      cases h
      exact ⟨rfl, toNat_ofNat_time _ hlim⟩
    · cases h

end Sys2Proof.Machine
end

section
/-! SUPPORT. Delays and masks bit by bit: which pins a mask pair takes to which level, and which of the two
writes of an APPLY carries the strobe (42_write.md R192-R199, 43_read.md R223). -/

namespace Sys2Proof.Machine

/-! ## Delays -/

theorem maxDelay_toNat (x y : Word) : (maxDelay x y).toNat = max x.toNat y.toNat := by
  unfold maxDelay
  split <;> omega

/-- Settles O32: both delays are `gap`, floored by `t_hold` through `maxDelay`. -/
theorem deassertDelaysAreFlooredByHold : Obligations.DeassertDelaysAreFlooredByHold := by
  intro par q k d hd
  have hgap : d = (q.gap k).toNat := hd
  subst hgap
  refine ⟨maxDelay_toNat _ _, fun hon => ?_, fun hoff => ?_⟩
  · rw [Slot.dW, if_pos hon, maxDelay_toNat]
  · rw [Slot.dW, if_neg (by rw [hoff]; exact Bool.false_ne_true)]

/-! ## Bits of masks -/

/-- The mask of a pair that takes its pins to a level: the set mask for 1, the clear mask for 0. -/
def Masks.level (m : Masks) : Bool → Word
  | true => m.s
  | false => m.c

theorem Masks.or_level (x y : Masks) (l : Bool) : (x.or y).level l = x.level l ||| y.level l := by
  cases l <;> rfl

theorem pinBit_getLsbD (p : Pin) (x : Nat) :
    (pinBit p).getLsbD x = true ↔ ∃ i, p = some i ∧ i.val = x := by
  cases p with
  | none => simp [pinBit]
  | some i =>
    have hi := i.isLt
    simp only [pinBit, BitVec.getLsbD_shiftLeft, BitVec.getLsbD_one, Option.some.injEq, exists_eq_left',
      Bool.and_eq_true, decide_eq_true_eq, Bool.not_eq_true', decide_eq_false_iff_not]
    omega

theorem lvlMask_level (p : Pin) (l m : Bool) (x : Nat) :
    ((lvlMask p l).level m).getLsbD x = true ↔ m = l ∧ (pinBit p).getLsbD x = true := by
  cases l <;> cases m <;> simp [lvlMask, Masks.level]

/-- A property of a union, of either of two parts of it, is one of some part of a folded union. -/
theorem foldl_union_iff {α β : Type} (P : α → Prop) (union : α → α → α)
    (hunion : ∀ a b, P (union a b) ↔ P a ∨ P b) (f : β → α) (l : List β) (a : α) :
    P (l.foldl (fun m j => union m (f j)) a) ↔ P a ∨ ∃ j ∈ l, P (f j) := by
  induction l generalizing a with
  | nil => simp
  | cons y r ih => rw [List.foldl_cons, ih, hunion, List.exists_mem_cons_iff, or_assoc]

theorem Slot.dataMask_getLsbD (q : Slot) (x : Nat) :
    q.dataMask.getLsbD x = true ↔ ∃ j < q.bpc.bits, (pinBit (q.groupPin j)).getLsbD x = true := by
  unfold Slot.dataMask
  rw [foldl_union_iff (fun m : Word => m.getLsbD x = true) (· ||| ·) (by simp)]
  simp

theorem Slot.dataMasks_level (q : Slot) (g : Byte) (l : Bool) (x : Nat) :
    ((q.dataMasks g).level l).getLsbD x = true ↔
      ∃ j < q.bpc.bits, l = g.getLsbD j ∧ (pinBit (q.groupPin j)).getLsbD x = true := by
  unfold Slot.dataMasks
  rw [foldl_union_iff (fun m => (m.level l).getLsbD x = true) Masks.or
    (fun a b => by rw [Masks.or_level]; simp)]
  cases l <;> simp only [lvlMask_level] <;> simp [Masks.level]

/-- Settles O33: the bits at a level of the folded masks, for either level. -/
theorem dataMasksPutEachBitOnItsPin : Obligations.DataMasksPutEachBitOnItsPin := by
  intro q g x _
  have hbit : ∀ l, ((q.dataMasks g).level l).getLsbD x = true ↔ ∃ j i, j < q.bpc.bits ∧
      q.d (8 - q.bpc.bits + j) = some i ∧ i.val = x ∧ g.getLsbD j = l := fun l => by
    rw [q.dataMasks_level g l x]
    simp only [pinBit_getLsbD, Slot.groupPin]
    constructor
    · rintro ⟨j, hj, hl, i, hi, hx⟩
      exact ⟨j, i, hj, hi, hx, hl.symm⟩
    · rintro ⟨j, i, hj, hi, hx, hl⟩
      exact ⟨j, hj, hl.symm, i, hi, hx⟩
  exact ⟨hbit true, hbit false⟩

/-! ## What a mask pair does to one pin -/

/-- The pair names pin `x` at neither level. -/
def Masks.Spares (m : Masks) (x : Nat) : Prop := ∀ l, (m.level l).getLsbD x = false

/-- The pair takes pin `x` to level `b`, and to no other. -/
def Masks.Takes (m : Masks) (x : Nat) (b : Bool) : Prop :=
  (m.level b).getLsbD x = true ∧ (m.level (!b)).getLsbD x = false

section
variable {x : Nat} {b : Bool}

theorem Masks.Spares.or {m k : Masks} (hm : m.Spares x) (hk : k.Spares x) : (m.or k).Spares x := fun l => by
  rw [Masks.or_level, BitVec.getLsbD_or, hm, hk, Bool.or_false]

theorem Masks.Takes.or_left {m k : Masks} (hm : m.Takes x b) (hk : k.Spares x) : (m.or k).Takes x b := by
  obtain ⟨hat, hnot⟩ := hm
  simp only [Masks.Takes, Masks.or_level, BitVec.getLsbD_or, hat, hnot, hk _, Bool.or_false, and_self]

theorem Masks.Takes.or_right {m k : Masks} (hm : m.Spares x) (hk : k.Takes x b) : (m.or k).Takes x b := by
  obtain ⟨hat, hnot⟩ := hk
  simp only [Masks.Takes, Masks.or_level, BitVec.getLsbD_or, hat, hnot, hm _, Bool.false_or, and_self]

theorem lvlMask_spares {p : Pin} (l : Bool) (hx : (pinBit p).getLsbD x = false) :
    (lvlMask p l).Spares x := fun m => Bool.eq_false_iff.2 fun h => by
  rw [((lvlMask_level p l m x).1 h).2] at hx
  cases hx

theorem lvlMask_takes {p : Pin} (l : Bool) (hx : (pinBit p).getLsbD x = true) : (lvlMask p l).Takes x l :=
  ⟨(lvlMask_level p l l x).2 ⟨rfl, hx⟩,
    Bool.eq_false_iff.2 fun h => Bool.not_ne_self l ((lvlMask_level p l (!l) x).1 h).1⟩

/-- The data masks name data pins only. -/
theorem Slot.dataMasks_spares {q : Slot} (g : Byte) (hx : q.dataMask.getLsbD x = false) :
    (q.dataMasks g).Spares x := fun l => Bool.eq_false_iff.2 fun h => by
  obtain ⟨j, hj, _, hbit⟩ := (q.dataMasks_level g l x).1 h
  rw [(q.dataMask_getLsbD x).2 ⟨j, hj, hbit⟩] at hx
  cases hx

end

theorem getLsbD_of_disjoint {a b : Word} {x : Nat} (h : disjoint a b = true) (ha : a.getLsbD x = true) :
    b.getLsbD x = false := by
  have hzero : a &&& b = 0 := of_decide_eq_true h
  have hbit : (a &&& b).getLsbD x = false := by rw [hzero]; exact BitVec.getLsbD_zero
  simpa [ha] using hbit

theorem disjoint_comm (a b : Word) : disjoint a b = disjoint b a := by
  unfold disjoint
  rw [BitVec.and_comm]

/-! ## The two writes of an APPLY -/

/-- SET for level 1, CLR for level 0. -/
def driveTxn : Bool → Word → Txn
  | true, m => .set m
  | false, m => .clr m

@[simp] theorem driveTxn_mask (l : Bool) (m : Word) : (driveTxn l m).mask = m := by cases l <;> rfl

theorem Slot.nLvl_eq (q : Slot) : q.nLvl = !q.aLvl := by
  unfold Slot.nLvl Slot.aLvl
  cases q.variant <;> rfl

/-- An assertion writes the mask at the asserted level last (R199). -/
theorem applyTrace_assertOrder (q : Slot) (m : Masks) : applyTrace m q.assertOrder =
    [driveTxn q.nLvl (m.level q.nLvl), driveTxn q.aLvl (m.level q.aLvl)] := by
  unfold Slot.assertOrder Slot.aLvl Slot.nLvl
  cases q.variant <;> rfl

/-- A deassertion writes the mask at the deasserted level last (R199). -/
theorem applyTrace_deassertOrder (q : Slot) (m : Masks) : applyTrace m q.deassertOrder =
    [driveTxn q.aLvl (m.level q.aLvl), driveTxn q.nLvl (m.level q.nLvl)] := by
  unfold Slot.deassertOrder Slot.aLvl Slot.nLvl
  cases q.variant <;> rfl

/-- The masks of the data bits and of a strobe at a level have the strobe's bit in the mask of that level. -/
theorem Slot.strobe_level (q : Slot) (g : Byte) (l : Bool) {p : Pin} {x : Nat}
    (hx : (pinBit p).getLsbD x = true) : (((q.dataMasks g).or (lvlMask p l)).level l).getLsbD x = true := by
  rw [Masks.or_level, BitVec.getLsbD_or, (lvlMask_level p l l x).2 ⟨rfl, hx⟩, Bool.or_true]

/-- No data pin being shared with the strobe, they take it to that level alone. -/
theorem Slot.strobe_takes {q : Slot} (g : Byte) (l : Bool) {p : Pin} {x : Nat}
    (hdata : q.dataMask.getLsbD x = false) (hx : (pinBit p).getLsbD x = true) :
    ((q.dataMasks g).or (lvlMask p l)).Takes x l :=
  .or_right (q.dataMasks_spares g hdata) (lvlMask_takes l hx)

/-- Settles O35: the second write of either pair is the one at the strobe's new level. -/
theorem strobeIsInTheSecondWrite : Obligations.StrobeIsInTheSecondWrite := by
  intro q g e he
  have hbit : (pinBit q.enwr).getLsbD e.val = true := (pinBit_getLsbD _ _).2 ⟨e, he, rfl⟩
  have hflip : (!q.nLvl) = q.aLvl := by rw [q.nLvl_eq, Bool.not_not]
  refine ⟨_, _, _, _, by
    rw [writeGroupTrace, applyTrace_assertOrder, applyTrace_deassertOrder]; rfl, ?_⟩
  simp only [driveTxn_mask]
  refine ⟨q.strobe_level g q.aLvl hbit, q.strobe_level g q.nLvl hbit, fun hdis => ?_⟩
  have hdata : q.dataMask.getLsbD e.val = false := getLsbD_of_disjoint (disjoint_comm _ _ ▸ hdis) hbit
  obtain ⟨_, hassert⟩ := q.strobe_takes g q.aLvl hdata hbit
  obtain ⟨_, hdeassert⟩ := q.strobe_takes g q.nLvl hdata hbit
  rw [← q.nLvl_eq] at hassert
  rw [hflip] at hdeassert
  exact ⟨hassert, hdeassert⟩

end Sys2Proof.Machine
end

section
/-! SUPPORT. A command that has finished ran from end to end, and one that is left undisturbed and has room on
the timebase does finish (20_memory.md R76, 41_timeline.md R177, 60_exceptions.md R256). -/

namespace Sys2Proof.Machine

/-! ## A finished command was not interrupted -/

/-- A host move lands in running commands only. -/
theorem State.busy_of_dueAt {s : State} {stop : Option Nat} (h : s.dueAt stop = true) :
    s.regs.busy = true := by
  cases stop with
  | none => cases h
  | some k => exact (Bool.and_eq_true_iff.1 h).2

/-- A program that left the sequencer idle stopped nowhere for a host move. -/
theorem runAll_of_run_idle {items : List Item} {s t : State} (h : run items s = .next t)
    (hb : t.regs.busy = false) : runAll items s = .next t := by
  have hdue : ¬ t.due = true := fun hd => by rw [State.busy_of_dueAt hd] at hb; cases hb
  induction items generalizing s with
  | nil => exact h
  | cons x r ih =>
    cases x with
    | loc l => rw [run_loc] at h; exact ih h
    | op o =>
      rw [run_op] at h
      split at h
      · next hd => cases h; exact absurd hd hdue
      · exact ih h
    | wait =>
      rw [run_wait] at h
      rw [runAll]
      split at h
      · next hbs =>
        obtain ⟨u, hu, h⟩ := thenRun_eq_next _ _ _ h
        obtain ⟨hrest, _, hend⟩ := s.waitTo_stops _ u hbs hu
        split at h
        · next hd => cases h; exact absurd hd hdue
        · next hd =>
          rw [State.due, State.stop_congr _ _ (State.waitTo_same _ _ _ hu).script] at hd
          rw [if_pos hbs, ← hrest, State.spinOn_of_spin_none none (hend.resolve_right hd)]
          exact ih h
      · next hbs => rw [if_neg hbs]; exact ih h

theorem runAll_finishOnly (c : Result) (s : State) :
    runAll (finishOnly c) s = .next (s.whileBusy (State.finish · c)) := by
  cases hb : s.regs.busy <;> simp [finishOnly, runAll, State.whileBusy, hb, opEffect, State.bumpUpc]

/-- The program of a command that fails a check (R13, R252). -/
def FailsCheck (items : List Item) : Prop := ∃ r, r ≠ Result.ok ∧ items = finishOnly r

section
variable {i : Instr} {s t : State} {xs : List Item} {c : Result}

/-- A finished command ran its lines from end to end, then its `finish`. -/
theorem exec_finished (hprog : programOf i s.begin = xs ++ finishOnly c) (h : exec i s = .next t)
    (hb : t.regs.busy = false) :
    ∃ u, runAll xs s.begin = .next u ∧ t = u.whileBusy (State.finish · c) := by
  rw [exec_eq_runFrom, hprog, ← State.launch_eq_runFrom] at h
  rcases State.launch_next _ _ _ h with rfl | h
  · cases hb
  · have hall := runAll_of_run_idle h hb
    rw [runAll_append] at hall
    obtain ⟨u, hu, hfinish⟩ := thenRun_eq_next _ _ _ hall
    rw [runAll_finishOnly] at hfinish
    cases hfinish
    exact ⟨u, hu, rfl⟩

/-- A command that finished with OK passed its checks: its program is not the end of a failed one. -/
theorem checks_passed_of_doneOk {P : Prop} (hprog : FailsCheck (programOf i s.begin) ∨ P)
    (h : exec i s = .next t) (hd : t.doneOk) : P := by
  refine hprog.resolve_left fun ⟨r, hr, hfail⟩ => ?_
  obtain ⟨hb, hok⟩ := hd
  obtain ⟨u, hu, rfl⟩ := exec_finished (xs := []) hfail h hb
  cases hu
  exact hr hok

/-- A command that no host move lands in runs its lines from end to end, then its `finish`. -/
theorem exec_of_quietFor (hprog : programOf i s.begin = xs ++ finishOnly c)
    (h : s.quietFor (countOps xs + 1) (countWaits xs) = true) :
    exec i s = thenRun (runAll xs s.begin) fun t => .next (t.whileBusy (State.finish · c)) := by
  rw [exec_eq_runFrom, hprog, ← State.launch_eq_runFrom]
  exact s.launch_finish xs c h

end

/-! ## Room for a whole program -/

theorem elapsedAhead_succ (k : Nat) (e : Draws Nat) :
    elapsedAhead (k + 1) e = e.value Config.elapsed + elapsedAhead k e.rest := rfl

/-- A spin and the times of the reads after it reach no further than the deadline and all those times. -/
theorem spinEnd_add_elapsedAhead_le (d n k now : Nat) (e : Draws Nat) :
    (spinEnd d n now e).1 + elapsedAhead k (spinEnd d n now e).2 ≤
      max now d + elapsedAhead (n + 1 + k) e := by
  induction n generalizing now e with
  | zero =>
    rw [spinEnd, show 0 + 1 + k = k + 1 by omega, elapsedAhead_succ]
    dsimp only
    omega
  | succ n ih =>
    have hle := elapsedAhead_le_of_le (show k ≤ n + 1 + k by omega) e.rest
    have hrest := ih (now + e.value Config.elapsed) e.rest
    rw [spinEnd, show n + 1 + 1 + k = n + 1 + k + 1 by omega, elapsedAhead_succ]
    split
    · dsimp only
      omega
    · omega

/-- Out of a spin, room is room from the timebase on. -/
theorem State.timeRoom_iff_of_spin_none {s : State} (h : s.ctl.spin = none) (w : Nat) :
    s.timeRoom w = true ↔ s.tl.sched.toNat ≤ s.mono.toNat ∧
      s.mono.toNat + elapsedAhead (w + spinsAhead w s.env.spins) s.env.elapsed + w * 2 ^ 32 <
        timeLimit := by
  rw [State.timeRoom_iff]
  simp [State.spinOk, State.horizon, State.spinReads, h]

/-- The end of a spin, if any, takes no room. -/
theorem State.timeRoom_of_spin_none {s t : State} {w : Nat} (h : s.timeRoom w = true)
    (hsched : t.tl.sched = s.tl.sched) (hmono : t.mono = s.mono) (helapsed : t.env.elapsed = s.env.elapsed)
    (hspins : t.env.spins = s.env.spins) (hspin : t.ctl.spin = none) : t.timeRoom w = true := by
  obtain ⟨hle, _, hroom⟩ := (s.timeRoom_iff w).1 h
  have hhorizon := s.mono_le_horizon
  have helapsedAhead : elapsedAhead (w + spinsAhead w s.env.spins) s.env.elapsed ≤
      elapsedAhead (s.spinReads + w + spinsAhead w s.env.spins) s.env.elapsed :=
    elapsedAhead_le_of_le (by omega) _
  rw [State.timeRoom_iff_of_spin_none hspin, hsched, hmono, helapsed, hspins]
  omega

/-- What a WAIT leaves of the room for it and for `w` more is room for those. -/
theorem State.timeRoom_wait {s t : State} {w : Nat} (h : s.timeRoom (w + 1) = true)
    (hw : s.wait = .next t) : t.ctl.spin = none ∧ t.timeRoom w = true := by
  obtain ⟨hle, _, hroom⟩ := (s.timeRoom_iff _).1 h
  have hfirst : s.env.elapsed.value Config.elapsed = s.nextElapsed := rfl
  have hhorizon := s.mono_le_horizon
  have hlimits := State.wait_inRange_of_timeRoom rfl h
  have hdeadline := s.waitDeadline_le (s.mono.toNat + s.nextElapsed)
  have hends := s.waitDeadline_le_waitEnd (s.mono.toNat + s.nextElapsed)
  have htiming : s.tl.timing.toNat < 2 ^ 32 := s.tl.timing.isLt
  obtain ⟨upc, steps, heq⟩ := s.wait_eq _ rfl
  rw [heq, if_pos hlimits] at hw
  cases hw
  refine ⟨rfl, (State.timeRoom_iff_of_spin_none rfl w).2 ?_⟩
  obtain ⟨_, _, hdlim, helim⟩ := hlimits
  simp only [State.waited, toNat_ofNat_time _ hdlim, toNat_ofNat_time _ helim]
  refine ⟨hends, ?_⟩
  by_cases hd : s.waitDeadline (s.mono.toNat + s.nextElapsed) ≤ s.mono.toNat + s.nextElapsed
  · have hmore := spinsAhead_le_succ w s.env.spins
    have hreads : elapsedAhead (w + spinsAhead w s.env.spins + 1) s.env.elapsed ≤
        elapsedAhead (s.spinReads + (w + 1) + spinsAhead (w + 1) s.env.spins) s.env.elapsed :=
      elapsedAhead_le_of_le (by omega) _
    rw [elapsedAhead_succ, hfirst] at hreads
    rw [State.waitEnd_of_le hd, if_pos hd, if_pos hd]
    omega
  · have hspins : spinsAhead (w + 1) s.env.spins =
        s.env.spins.value Config.spins + 1 + spinsAhead w s.env.spins.rest := rfl
    have hreads : elapsedAhead
        (s.env.spins.value Config.spins + 1 + (w + spinsAhead w s.env.spins.rest) + 1) s.env.elapsed ≤
        elapsedAhead (s.spinReads + (w + 1) + spinsAhead (w + 1) s.env.spins) s.env.elapsed :=
      elapsedAhead_le_of_le (by omega) _
    rw [elapsedAhead_succ, hfirst] at hreads
    have hspin := spinEnd_add_elapsedAhead_le (s.waitDeadline (s.mono.toNat + s.nextElapsed))
      (s.env.spins.value Config.spins) (w + spinsAhead w s.env.spins.rest) (s.mono.toNat + s.nextElapsed)
      s.env.elapsed.rest
    rw [State.waitEnd, if_neg hd, if_neg hd, if_neg hd]
    omega

theorem localEffect_spin_none (l : Local) (s : State) (h : s.ctl.spin = none) :
    (localEffect l s).ctl.spin = none := by
  cases l
  case needGpio => obtain ⟨e, he | he⟩ := s.needGpio_cases <;> simp [localEffect, he, h, Control.idle]
  all_goals exact h

theorem opEffect_spin_none (o : Op) (s : State) (h : s.ctl.spin = none) : (opEffect o s).ctl.spin = none := by
  cases o
  case finish c => rfl
  all_goals exact h

/-- Lines and micro-operations but WAIT take no time of the supply and leave the timebase alone. -/
theorem localEffect_time (l : Local) (s : State) : (localEffect l s).tl.sched = s.tl.sched ∧
    (localEffect l s).mono = s.mono ∧ (localEffect l s).env.elapsed = s.env.elapsed := by
  cases l
  case needGpio =>
    rw [localEffect, State.needGpio]
    split <;> exact ⟨rfl, rfl, rfl⟩
  all_goals exact ⟨rfl, rfl, rfl⟩

theorem opEffect_time (o : Op) (s : State) : (opEffect o s).tl.sched = s.tl.sched ∧
    (opEffect o s).mono = s.mono ∧ (opEffect o s).env.elapsed = s.env.elapsed := by
  cases o <;> exact ⟨rfl, rfl, rfl⟩

/-- A program with room on the timebase for its WAITs runs from end to end. -/
theorem runAll_next_of_timeRoom (items : List Item) (s : State) (hspin : s.ctl.spin = none)
    (h : s.timeRoom (countWaits items) = true) : ∃ t, runAll items s = .next t := by
  induction items generalizing s with
  | nil => exact ⟨s, rfl⟩
  | cons x r ih =>
    cases hb : s.regs.busy with
    | false => exact ⟨s, runAll_idle _ s hb⟩
    | true =>
      cases x with
      | loc l =>
        obtain ⟨hsched, hmono, helapsed⟩ := localEffect_time l s
        have hnone := localEffect_spin_none l s hspin
        rw [runAll_loc _ _ _ hb]
        exact ih _ hnone
          (State.timeRoom_of_spin_none h hsched hmono helapsed (localEffect_spins l s) hnone)
      | op o =>
        obtain ⟨hsched, hmono, helapsed⟩ := opEffect_time o s
        have hnone := opEffect_spin_none o s hspin
        obtain ⟨u, n, hbump⟩ := (opEffect o s).bumpUpc_eq
        rw [runAll, State.whileBusy_busy s _ hb, hbump]
        exact ih _ hnone (State.timeRoom_of_spin_none h hsched hmono helapsed (opEffect_spins o s) hnone)
      | wait =>
        obtain ⟨_, _, hw⟩ := s.wait_eq _ rfl
        rw [if_pos (State.wait_inRange_of_timeRoom rfl h)] at hw
        obtain ⟨hnone, hroom⟩ := State.timeRoom_wait h hw
        rw [runAll, if_pos hb, hw, thenRun_next]
        exact ih _ hnone hroom

end Sys2Proof.Machine
end

section
/-! SUPPORT. A program run from end to end, time apart: what its lines and micro-operations compute, which no
time between them changes, and the schedule its WAITs keep at the least (41_timeline.md R170-R172). -/

namespace Sys2Proof.Machine

/-! ## What a program computes -/

/-- What an item computes, a WAIT nothing. -/
def Item.effect : Item → State → State
  | .loc l, s => localEffect l s
  | .op o, s => opEffect o s
  | .wait, s => s

/-- What a program computes, the time it takes apart. -/
def effects (items : List Item) (s : State) : State := items.foldl (fun u x => x.effect u) s

theorem effects_append (xs ys : List Item) (s : State) : effects (xs ++ ys) s = effects ys (effects xs s) :=
  List.foldl_append

theorem effects_cons (x : Item) (r : List Item) (s : State) : effects (x :: r) s = effects r (x.effect s) := rfl

/-- The state with the time, the position and the supplies of time of another. -/
def State.withTimeOf (s t : State) : State :=
  { s with
    mono := t.mono
    tl := ⟨t.tl.sched, s.tl.timing⟩
    ctl := { s.ctl with upc := t.ctl.upc, steps := t.ctl.steps, spin := t.ctl.spin }
    env := { s.env with elapsed := t.env.elapsed, spins := t.env.spins } }

theorem State.SameButTime.eq_withTimeOf {s t : State} (h : s.SameButTime t) : t = s.withTimeOf t := by
  obtain ⟨_, _, ⟨_, _⟩, _, _, _, _, _, _, ⟨_, _, _, _, _⟩, _, _⟩ := t
  obtain ⟨rfl, rfl, rfl, hctl, rfl, rfl, rfl, rfl, rfl, rfl, rfl, rfl, rfl⟩ := h
  rw [State.withTimeOf, ← hctl]

theorem Item.effect_runKeeps (x : Item) (s : State) : s.RunKeeps (x.effect s) := by
  cases x with
  | loc l => exact localEffect_runKeeps l s
  | op o => exact opEffect_runKeeps o s
  | wait => exact .rfl' s

theorem busy_of_effects {items : List Item} {s : State} (h : (effects items s).regs.busy = true) :
    s.regs.busy = true := by
  induction items generalizing s with
  | nil => exact h
  | cons x r ih => exact (x.effect_runKeeps s).busy (ih h)

/-- While the command runs, no item looks at the time. -/
theorem Item.effect_withTimeOf (x : Item) {s : State} (t : State) (h : (x.effect s).regs.busy = true) :
    x.effect (s.withTimeOf t) = (x.effect s).withTimeOf t := by
  cases x with
  | loc l =>
    cases l
    case needGpio =>
      rw [Item.effect, localEffect, State.needGpio] at h ⊢
      rw [Item.effect, localEffect, State.needGpio]
      split at h
      · next hv =>
        have hv' : (s.withTimeOf t).env.avail.value Config.gpioAvail = true := hv
        rw [if_pos hv, if_pos hv']
        rfl
      · cases h
    all_goals rfl
  | op o =>
    cases o
    case finish c => cases h
    all_goals rfl
  | wait => rfl

theorem effects_withTimeOf (items : List Item) (s t : State) (h : (effects items s).regs.busy = true) :
    effects items (s.withTimeOf t) = (effects items s).withTimeOf t := by
  induction items generalizing s with
  | nil => rfl
  | cons x r ih =>
    rw [effects_cons, x.effect_withTimeOf t (busy_of_effects h)]
    exact ih _ h

/-! ## The schedule a program keeps -/

/-- What an item does to the schedule where no WAIT overruns: WAIT commits the pending increment, ADV requests
one (R170, R171). -/
def Item.pace : Item → Nat × Word → Nat × Word
  | .wait, p => (p.1 + p.2.toNat, p.2)
  | .op (.adv d), p => (p.1, d)
  | _, p => p

/-- The schedule a program keeps at the least, from an instant and a pending increment. -/
def pace (items : List Item) (p : Nat × Word) : Nat × Word := items.foldl (fun u x => x.pace u) p

theorem pace_append (xs ys : List Item) (p : Nat × Word) : pace (xs ++ ys) p = pace ys (pace xs p) :=
  List.foldl_append

theorem State.le_waitDeadline (s : State) (now : Nat) :
    s.tl.sched.toNat + s.tl.timing.toNat ≤ s.waitDeadline now := by
  unfold State.waitDeadline
  split
  · split <;> omega
  · omega

/-- The increment an item leaves pending. -/
theorem Item.effect_pace (x : Item) (s : State) (c : Nat) :
    (x.pace (c, s.tl.timing)).2 = (x.effect s).tl.timing := by
  cases x with
  | loc l =>
    cases l
    case needGpio =>
      rw [Item.effect, localEffect, State.needGpio]
      split <;> rfl
    all_goals rfl
  | op o => cases o <;> rfl
  | wait => rfl

/-- The first item of a program run from end to end: it computes its effect, and takes the schedule at least
as far as its pace. -/
theorem runAll_cons_next {x : Item} {r : List Item} {s t : State} (hb : (x.effect s).regs.busy = true)
    (h : runAll (x :: r) s = .next t) :
    ∃ u, u = (x.effect s).withTimeOf u ∧ runAll r u = .next t ∧
      ∀ c ≤ s.tl.sched.toNat, (x.pace (c, s.tl.timing)).1 ≤ u.tl.sched.toNat := by
  have hbs : s.regs.busy = true := (x.effect_runKeeps s).busy hb
  cases x with
  | loc l =>
    rw [runAll_loc _ _ _ hbs] at h
    obtain ⟨hsched, _, _⟩ := localEffect_time l s
    exact ⟨_, rfl, h, fun c hc => by rw [hsched]; exact hc⟩
  | op o =>
    rw [runAll, State.whileBusy_busy s _ hbs] at h
    refine ⟨_, (opEffect o s).bumpUpc_same.eq_withTimeOf, h, fun c hc => ?_⟩
    obtain ⟨_, _, hbump⟩ := (opEffect o s).bumpUpc_eq
    obtain ⟨hsched, _, _⟩ := opEffect_time o s
    have hpace : ((Item.op o).pace (c, s.tl.timing)).1 = c := by cases o <;> rfl
    rw [hpace, hbump]
    show c ≤ (opEffect o s).tl.sched.toNat
    rw [hsched]
    exact hc
  | wait =>
    rw [runAll, if_pos hbs] at h
    obtain ⟨u, hu, h⟩ := thenRun_eq_next _ _ _ h
    refine ⟨u, (State.waitTo_same _ _ _ hu).eq_withTimeOf, h, fun c hc => ?_⟩
    have hdeadline := s.le_waitDeadline (s.mono.toNat + s.nextElapsed)
    rw [(State.wait_next rfl hu).1]
    show c + s.tl.timing.toNat ≤ _
    omega

/-- A program run from end to end computes its effects, whatever time it takes. -/
theorem runAll_effects {items : List Item} {s t : State} (hb : (effects items s).regs.busy = true)
    (h : runAll items s = .next t) : t = (effects items s).withTimeOf t := by
  induction items generalizing s with
  | nil => cases h; rfl
  | cons x r ih =>
    obtain ⟨u, hu, h, _⟩ := runAll_cons_next (busy_of_effects hb) h
    have heffects : effects r u = (effects r (x.effect s)).withTimeOf u := by
      rw [hu]
      exact effects_withTimeOf r _ u hb
    have ht := ih (by rw [heffects]; exact hb) h
    rw [heffects] at ht
    exact ht

/-- It is never ahead of its pace. -/
theorem runAll_pace {items : List Item} {s t : State} (hb : (effects items s).regs.busy = true)
    (h : runAll items s = .next t) {c : Nat} (hc : c ≤ s.tl.sched.toNat) :
    (pace items (c, s.tl.timing)).1 ≤ t.tl.sched.toNat := by
  induction items generalizing s c with
  | nil => cases h; exact hc
  | cons x r ih =>
    obtain ⟨u, hu, h, hpace⟩ := runAll_cons_next (busy_of_effects hb) h
    have hbu : (effects r u).regs.busy = true := by
      rw [hu, effects_withTimeOf r _ u hb]
      exact hb
    have htiming : u.tl.timing = (x.pace (c, s.tl.timing)).2 := by
      rw [x.effect_pace, hu]
      rfl
    have hrest := ih hbu h (hpace c hc)
    rw [htiming] at hrest
    exact hrest

/-! ## Increments requested and committed -/

theorem committed_cons_cons (d e : Word) (r : List Word) :
    committed (d :: e :: r) = d.toNat + committed (e :: r) := by
  simp [committed]

/-- The last increment of a part is the first that the next part commits. -/
theorem committed_cons_append (d : Word) (ds es : List Word) :
    committed (d :: (ds ++ es)) = committed (d :: ds) + committed (ds.getLastD d :: es) := by
  induction ds generalizing d with
  | nil => simp [committed]
  | cons x r ih =>
    rw [List.cons_append, committed_cons_cons, committed_cons_cons, ih, List.getLastD_cons, Nat.add_assoc]

/-- The items request the increments `ds`, and commit what was pending and all of them but the last. -/
def Requests (items : List Item) (ds : List Word) : Prop :=
  ∀ c d, pace items (c, d) = (c + committed (d :: ds), ds.getLastD d)

theorem Requests.nil : Requests [] [] := fun _ _ => rfl

theorem Requests.append {xs ys : List Item} {ds es : List Word} (hx : Requests xs ds) (hy : Requests ys es) :
    Requests (xs ++ ys) (ds ++ es) := by
  intro c d
  rw [pace_append, hx, hy, committed_cons_append, Nat.add_assoc]
  congr 1
  cases es <;> simp [List.getLastD_eq_getLast?]

theorem Requests.flatMap {α : Type} (l : List α) {f : α → List Item} {g : α → List Word}
    (h : ∀ x, Requests (f x) (g x)) : Requests (l.flatMap f) (l.flatMap g) := by
  induction l with
  | nil => exact .nil
  | cons x r ih => exact (h x).append ih

end Sys2Proof.Machine
end

section
/-! SUPPORT. The write program from end to end (42_write.md R190-R196): what it logs, what it requests of the
timeline, and how long it is. -/

namespace Sys2Proof.Machine

open Sys2Proof.Config (Params)

/-! ## The program up to its `finish` -/

/-- Steps 1 and 2 of `WRITE`: the data lines become outputs, the address and direction lines are set
(R190). -/
def writeOpening (par : Params) (q : Slot) (kind : Kind) : List Item :=
  .loc (.masks (q.writeSetup par kind)) :: .op (.mode q.dataMask .output) :: .wait
    :: applyOps q.assertOrder ++ [.op (.adv q.tSetup)]

/-- Step 4 of `WRITE`: the data lines become inputs, the direction line is set (R190). -/
def writeClosing (par : Params) (q : Slot) : List Item :=
  .op (.mode q.dataMask .input) :: applyItems (lvlMask q.rwrd (q.hostLvl par)) q.assertOrder

/-- `WRITE` up to its `finish` (R190). -/
def writeFront (par : Params) (q : Slot) (kind : Kind) (n : Nat) (src : ByteSource) : List Item :=
  writeOpening par q kind ++ (List.range n).flatMap (writeByte par q src) ++ writeClosing par q

theorem writeItems_eq (par : Params) (q : Slot) (kind : Kind) (n : Nat) (src : ByteSource) :
    writeItems par q kind n src = writeFront par q kind n src ++ finishOnly .ok := by
  simp [writeItems, writeFront, writeOpening, writeClosing, finishOnly]

theorem countOps_flatMap {α : Type} (l : List α) (f : α → List Item) (k : Nat)
    (h : ∀ x, countOps (f x) = k) : countOps (l.flatMap f) = l.length * k := by
  induction l with
  | nil => simp [countOps]
  | cons x r ih => rw [List.flatMap_cons, countOps_append, h, ih, List.length_cons]; ring

theorem countWaits_flatMap {α : Type} (l : List α) (f : α → List Item) (k : Nat)
    (h : ∀ x, countWaits (f x) = k) : countWaits (l.flatMap f) = l.length * k := by
  induction l with
  | nil => simp [countWaits]
  | cons x r ih => rw [List.flatMap_cons, countWaits_append, h, ih, List.length_cons]; ring

theorem countOps_applyOps (o : Order) : countOps (applyOps o) = 2 := by cases o <;> rfl

theorem countWaits_applyOps (o : Order) : countWaits (applyOps o) = 0 := by cases o <;> rfl

theorem countOps_writeByte (par : Params) (q : Slot) (src : ByteSource) (i : Nat) :
    countOps (writeByte par q src i) = q.bpc.groups * 8 := by
  have hgroup : ∀ k, countOps (writeGroup par q k) = 8 := fun k => by
    simp [writeGroup, countOps_append, countOps_applyOps, countOps]
  have hgroups := countOps_flatMap (List.range q.bpc.groups) (writeGroup par q) 8 hgroup
  rwa [List.length_range] at hgroups

theorem countWaits_writeByte (par : Params) (q : Slot) (src : ByteSource) (i : Nat) :
    countWaits (writeByte par q src i) = q.bpc.groups * 2 := by
  have hgroup : ∀ k, countWaits (writeGroup par q k) = 2 := fun k => by
    simp [writeGroup, countWaits_append, countWaits_applyOps, countWaits]
  have hgroups := countWaits_flatMap (List.range q.bpc.groups) (writeGroup par q) 2 hgroup
  rwa [List.length_range] at hgroups

theorem countOps_writeFront (par : Params) (q : Slot) (kind : Kind) (n : Nat) (src : ByteSource) :
    countOps (writeFront par q kind n src) + 1 = q.writeOps n := by
  simp only [writeFront, writeOpening, writeClosing, applyItems, List.cons_append, countOps_append,
    countOps, countOps_applyOps, List.length_range,
    countOps_flatMap _ _ _ (countOps_writeByte par q src), Slot.writeOps]
  ring

theorem countWaits_writeFront (par : Params) (q : Slot) (kind : Kind) (n : Nat) (src : ByteSource) :
    countWaits (writeFront par q kind n src) = q.waits n := by
  simp only [writeFront, writeOpening, writeClosing, applyItems, List.cons_append, countWaits_append,
    countWaits, countWaits_applyOps, List.length_range,
    countWaits_flatMap _ _ _ (countWaits_writeByte par q src), Slot.waits]
  ring

/-! ## What a write requests of the timeline -/

theorem writeGroup_requests (par : Params) (q : Slot) (k : Nat) :
    Requests (writeGroup par q k) [q.tClock, q.dW par k] := by
  intro c d
  unfold writeGroup
  cases q.assertOrder <;> cases q.deassertOrder <;> simp [pace, applyOps, Item.pace, committed, Nat.add_assoc]

theorem writeFront_requests (par : Params) (q : Slot) (kind : Kind) (n : Nat) (src : ByteSource) :
    Requests (writeFront par q kind n src) (writeDelays par q n) := by
  have hbytes : Requests ((List.range n).flatMap (writeByte par q src))
      ((List.range n).flatMap fun _ => (List.range q.bpc.groups).flatMap fun k => [q.tClock, q.dW par k]) :=
    .flatMap _ fun i => .append (xs := [.loc (.loadByte i src)]) .nil
      (.flatMap _ (writeGroup_requests par q))
  have hopening : Requests (writeOpening par q kind) [q.tSetup] := by
    intro c d
    unfold writeOpening
    cases q.assertOrder <;> simp [pace, applyOps, Item.pace, committed]
  have hclosing : Requests (writeClosing par q) [] := by
    unfold writeClosing
    cases q.assertOrder <;> exact .nil
  have h := (hopening.append hbytes).append hclosing
  rwa [List.append_nil] at h

/-! ## What a write computes -/

/-- The state with transactions logged, an increment requested and another control state. -/
def State.logged (s : State) (tx : List Txn) (d : Word) (c : Control) : State :=
  { s with port := s.port.after tx, tl := ⟨s.tl.sched, d⟩, ctl := c }

theorem State.logged_logged (s : State) (tx ty : List Txn) (d e : Word) (c x : Control) :
    (s.logged tx d c).logged ty e x = s.logged (tx ++ ty) e x := by
  rw [State.logged, State.logged, State.logged, Port.after_append]

theorem State.byteAt_logged (s : State) (tx : List Txn) (d : Word) (c : Control) (src : ByteSource) :
    (s.logged tx d c).byteAt src = s.byteAt src := by
  cases src <;> rfl

theorem effects_applyOps (o : Order) (s : State) :
    effects (applyOps o) s = s.logged (applyTrace s.ctl.masks o) s.tl.timing s.ctl := by
  cases o <;> simp [effects, applyOps, Item.effect, opEffect, State.logged, applyTrace, Port.after,
    State.portClr, State.portSet, Txn.outAfter, Txn.dirAfter]

theorem effects_applyItems (m : Masks) (o : Order) (s : State) :
    effects (applyItems m o) s = s.logged (applyTrace m o) s.tl.timing (s.setMasks m).ctl :=
  effects_applyOps o (s.setMasks m)

/-- One group of a write: the top bits of what is left of the byte go out (R190, R191). -/
theorem effects_writeGroup (par : Params) (q : Slot) (k : Nat) (s : State) :
    ∃ c, effects (writeGroup par q k) s =
      s.logged (writeGroupTrace q (q.topGroup s.ctl.b)) (q.dW par k) c ∧ c.b = q.shiftOut s.ctl.b := by
  refine ⟨{ (s.takeGroup q k).ctl with masks := q.deassertMasks (q.topGroup s.ctl.b) }, ?_, rfl⟩
  simp only [writeGroup, effects_append, effects_applyOps]
  exact State.logged_logged s _ _ q.tClock _ (s.takeGroup q k).ctl _

theorem Slot.topGroup_eq_group (q : Slot) (b : Byte) : q.topGroup b = q.group b 0 := by
  unfold Slot.topGroup Slot.group
  cases q.bpc
  · ext i
    simp only [BusWidth.bits, BitVec.getElem_ushiftRight, BitVec.getElem_setWidth, BitVec.getLsbD_extractLsb']
    by_cases h : 4 + i < 8
    · simp [show i < 4 by omega]
    · simp [BitVec.getLsbD_of_ge b (4 + i) (by omega)]
  · simp [BusWidth.bits]

theorem Slot.topGroup_shiftOut (q : Slot) (b : Byte) (hw : q.bpc = .w4) :
    q.topGroup (q.shiftOut b) = q.group b 1 := by
  unfold Slot.topGroup Slot.shiftOut Slot.group
  rw [hw]
  ext i
  simp only [BusWidth.bits, BitVec.getElem_ushiftRight, BitVec.getElem_setWidth, BitVec.getLsbD_extractLsb',
    BitVec.getLsbD_shiftLeft]
  by_cases h : 4 + i < 8
  · simp [h, show i < 4 by omega]
  · simp [h, show ¬ i < 4 by omega]

/-- The transactions of one byte of a write, most significant group first (R190, R191). -/
def writeByteTrace (q : Slot) (b : Byte) : List Txn :=
  (List.range q.bpc.groups).flatMap fun k => writeGroupTrace q (q.group b k)

/-- One byte of a write: its groups, and the delay after the last of them is left pending (R190). -/
theorem effects_writeByte (par : Params) (q : Slot) (src : ByteSource) (i : Nat) (s : State) :
    ∃ c, effects (writeByte par q src i) s =
      s.logged (writeByteTrace q (s.byteAt src i)) (q.dW par (q.bpc.groups - 1)) c := by
  obtain ⟨c, hc, hb⟩ := effects_writeGroup par q 0 (s.loadByte i src)
  have hload : ∀ r, effects (.loc (.loadByte i src) :: r) s = effects r (s.loadByte i src) := fun _ => rfl
  unfold writeByte writeByteTrace
  rw [hload]
  cases hw : q.bpc with
  | w8 =>
    refine ⟨c, ?_⟩
    simp only [BusWidth.groups, List.range_one, List.flatMap_singleton, hc, q.topGroup_eq_group]
    rfl
  | w4 =>
    obtain ⟨d, hd, _⟩ := effects_writeGroup par q 1 (effects (writeGroup par q 0) (s.loadByte i src))
    refine ⟨d, ?_⟩
    have hrange : List.range 2 = [0, 1] := rfl
    simp only [BusWidth.groups, hrange, List.flatMap_cons, List.flatMap_nil, List.append_nil, effects_append,
      hd]
    have hb1 : (effects (writeGroup par q 0) (s.loadByte i src)).ctl.b = q.shiftOut (s.byteAt src i) := by
      rw [hc]; exact hb
    rw [hb1, q.topGroup_shiftOut _ hw, hc, State.logged_logged, q.topGroup_eq_group]
    rfl

theorem effects_writeBytes (par : Params) (q : Slot) (src : ByteSource) (n : Nat) (s : State) :
    ∃ c, effects ((List.range n).flatMap (writeByte par q src)) s =
      s.logged (((List.range n).map (s.byteAt src)).flatMap (writeByteTrace q))
        (if n = 0 then s.tl.timing else q.dW par (q.bpc.groups - 1)) c := by
  induction n with
  | zero => exact ⟨s.ctl, by simp [effects, State.logged, Port.after]⟩
  | succ n ih =>
    obtain ⟨c, hc⟩ := ih
    obtain ⟨d, hd⟩ := effects_writeByte par q src n
      (effects ((List.range n).flatMap (writeByte par q src)) s)
    refine ⟨d, ?_⟩
    rw [List.range_succ, List.flatMap_append, effects_append, List.flatMap_singleton, hd, hc,
      State.byteAt_logged, State.logged_logged, List.map_append, List.flatMap_append, List.map_singleton,
      List.flatMap_singleton, if_neg (Nat.succ_ne_zero n)]

/-- The transactions of steps 1 and 2 (R190). -/
def openingTrace (par : Params) (q : Slot) (kind : Kind) : List Txn :=
  .mode q.dataMask .output :: applyTrace (q.writeSetup par kind) q.assertOrder

/-- The transactions of step 4 (R190). -/
def closingTrace (par : Params) (q : Slot) : List Txn :=
  .mode q.dataMask .input :: applyTrace (lvlMask q.rwrd (q.hostLvl par)) q.assertOrder

theorem writeTrace_eq (par : Params) (q : Slot) (kind : Kind) (bytes : List Byte) :
    writeTrace par q kind bytes =
      openingTrace par q kind ++ bytes.flatMap (writeByteTrace q) ++ closingTrace par q := by
  rw [writeTrace, List.append_assoc _ _ (applyTrace _ _)]
  rfl

theorem effects_writeOpening (par : Params) (q : Slot) (kind : Kind) (s : State) :
    ∃ c, effects (writeOpening par q kind) s = s.logged (openingTrace par q kind) q.tSetup c := by
  refine ⟨(s.setMasks (q.writeSetup par kind)).ctl, ?_⟩
  have hmode : openingTrace par q kind =
      [Txn.mode q.dataMask .output] ++ applyTrace (q.writeSetup par kind) q.assertOrder := rfl
  rw [writeOpening, List.cons_append, List.cons_append, List.cons_append, effects_cons, effects_cons,
    effects_cons, effects_append, effects_applyOps, hmode, State.logged, State.logged, Port.after_append]
  rfl

theorem effects_writeClosing (par : Params) (q : Slot) (s : State) :
    ∃ c, effects (writeClosing par q) s = s.logged (closingTrace par q) s.tl.timing c := by
  refine ⟨(s.setMasks (lvlMask q.rwrd (q.hostLvl par))).ctl, ?_⟩
  have hmode : closingTrace par q =
      [Txn.mode q.dataMask .input] ++ applyTrace (lvlMask q.rwrd (q.hostLvl par)) q.assertOrder := rfl
  rw [writeClosing, effects_cons, effects_applyItems, hmode, State.logged, State.logged, Port.after_append]
  rfl

/-- The whole write, up to its `finish`. -/
theorem effects_writeFront (par : Params) (q : Slot) (kind : Kind) (n : Nat) (src : ByteSource) (s : State) :
    ∃ c, effects (writeFront par q kind n src) s =
      s.logged (writeTrace par q kind ((List.range n).map (s.byteAt src)))
        (if n = 0 then q.tSetup else q.dW par (q.bpc.groups - 1)) c := by
  obtain ⟨c, hopening⟩ := effects_writeOpening par q kind s
  obtain ⟨d, hbytes⟩ := effects_writeBytes par q src n (s.logged (openingTrace par q kind) q.tSetup c)
  rw [State.byteAt_logged, State.logged_logged] at hbytes
  obtain ⟨e, hclosing⟩ := effects_writeClosing par q
    (effects ((List.range n).flatMap (writeByte par q src)) (s.logged (openingTrace par q kind) q.tSetup c))
  refine ⟨e, ?_⟩
  rw [writeFront, effects_append, effects_append, hopening, hclosing, hbytes, State.logged_logged,
    writeTrace_eq]
  rfl

/-! ## WRDATA and WRCMD -/

/-- WRDATA fails a check or runs the write program (R205, R252). -/
theorem programOf_wrdata (s : State) (p n : Nat) :
    FailsCheck (programOf (.wrdata p n) s) ∨
      programOf (.wrdata p n) s = writeFront s.params (s.slotAt p) .data n .buffer ++ finishOnly .ok := by
  simp only [programOf, wrdataProgram, withSlot]
  split
  · exact .inl ⟨_, by decide, rfl⟩
  · split
    · split
      · exact .inl ⟨_, by decide, rfl⟩
      · exact .inr (writeItems_eq ..)
    · exact .inl ⟨_, by decide, rfl⟩

/-- WRCMD fails a check or runs the write program (R206, R252). -/
theorem programOf_wrcmd (s : State) (p : Nat) (imm : Byte) :
    FailsCheck (programOf (.wrcmd p imm) s) ∨
      programOf (.wrcmd p imm) s = writeFront s.params (s.slotAt p) .cmdreg 1 (.imm imm) ++ finishOnly .ok := by
  simp only [programOf, wrcmdProgram, withSlot]
  split
  · exact .inl ⟨_, by decide, rfl⟩
  · split
    · exact .inr (writeItems_eq ..)
    · exact .inl ⟨_, by decide, rfl⟩

/-- What a write that ran from end to end leaves: time and the supplies of time are what they became. -/
def State.afterWrite (s : State) (tx : List Txn) (timing : Word) (u : State) : State :=
  { s with
    regs := { s.regs with busy := false, result := .ok }
    tl := ⟨u.tl.sched, timing⟩
    mono := u.mono
    ctl := Control.idle
    port := s.port.after tx
    env := { s.env with elapsed := u.env.elapsed, spins := u.env.spins } }

section
variable {s u : State} {q : Slot} {kind : Kind} {n : Nat} {src : ByteSource}

/-- A write's lines, run from end to end and finished. -/
theorem finish_writeFront (h : runAll (writeFront s.params q kind n src) s.begin = .next u) :
    u.whileBusy (State.finish · .ok) =
      s.afterWrite (writeTrace s.params q kind ((List.range n).map (s.byteAt src)))
        (if n = 0 then q.tSetup else q.dW s.params (q.bpc.groups - 1)) u := by
  obtain ⟨c, hc⟩ := effects_writeFront s.params q kind n src s.begin
  have hb : (effects (writeFront s.params q kind n src) s.begin).regs.busy = true := by rw [hc]; rfl
  have hbyte : s.begin.byteAt src = s.byteAt src := by cases src <;> rfl
  have hu := runAll_effects hb h
  rw [hc, hbyte] at hu
  rw [State.whileBusy_busy u _ (by rw [hu]; rfl), hu]
  rfl

theorem writeFront_sched_le (h : runAll (writeFront s.params q kind n src) s.begin = .next u) :
    s.tl.sched.toNat + s.tl.timing.toNat + committed (writeDelays s.params q n) ≤ u.tl.sched.toNat := by
  obtain ⟨c, hc⟩ := effects_writeFront s.params q kind n src s.begin
  have hb : (effects (writeFront s.params q kind n src) s.begin).regs.busy = true := by rw [hc]; rfl
  have hpace := runAll_pace hb h (c := s.tl.sched.toNat) le_rfl
  rw [writeFront_requests, writeDelays, committed_cons_cons, ← Nat.add_assoc] at hpace
  exact hpace

end

/-- A write left undisturbed, with room on the timebase, runs from end to end. -/
theorem exec_write_undisturbed {i : Instr} {s : State} {q : Slot} {kind : Kind} {n : Nat} {src : ByteSource}
    (hprog : programOf i s.begin = writeFront s.params q kind n src ++ finishOnly .ok)
    (hquiet : s.quietFor (q.writeOps n) (q.waits n) = true) (hroom : s.timeRoom (q.waits n) = true) :
    ∃ u, exec i s = .next (s.afterWrite (writeTrace s.params q kind ((List.range n).map (s.byteAt src)))
        (if n = 0 then q.tSetup else q.dW s.params (q.bpc.groups - 1)) u) ∧
      s.tl.sched.toNat + s.tl.timing.toNat + committed (writeDelays s.params q n) ≤ u.tl.sched.toNat := by
  have hbegin : s.begin.timeRoom (q.waits n) = true := State.timeRoom_of_spin_none hroom rfl rfl rfl rfl rfl
  rw [← countWaits_writeFront s.params q kind n src] at hbegin
  obtain ⟨u, hu⟩ := runAll_next_of_timeRoom (writeFront s.params q kind n src) s.begin rfl hbegin
  refine ⟨u, ?_, writeFront_sched_le hu⟩
  rw [exec_of_quietFor hprog (by rwa [countOps_writeFront, countWaits_writeFront]), hu, thenRun_next,
    finish_writeFront hu]

/-- Settles O36: WRCMD passes its checks, and its one byte is the immediate. -/
theorem wrcmdWritesTheCommandByte : Obligations.WrcmdWritesTheCommandByte := by
  intro s p imm q hp hq hv hquiet hroom
  subst hq
  have hprog : programOf (.wrcmd p imm) s.begin =
      writeFront s.params (s.slotAt p) .cmdreg 1 (.imm imm) ++ finishOnly .ok :=
    (withSlot_of_slot (s := s.begin) hp _).trans ((if_pos hv).trans (writeItems_eq ..))
  obtain ⟨u, hexec, hsched⟩ := exec_write_undisturbed hprog hquiet hroom
  exact ⟨_, hexec, rfl, hsched, rfl⟩

/-- Settles O37: WRDATA passes its checks, and its bytes are BUF's. -/
theorem wrdataWritesTheBuffer : Obligations.WrdataWritesTheBuffer := by
  intro s p n q hp hq hv hn hquiet hroom
  subst hq
  have hprog : programOf (.wrdata p n) s.begin =
      writeFront s.params (s.slotAt p) .data n .buffer ++ finishOnly .ok :=
    (withSlot_of_slot (s := s.begin) hp _).trans
      ((if_pos hv).trans ((if_neg (Nat.not_lt.2 hn)).trans (writeItems_eq ..)))
  obtain ⟨u, hexec, hsched⟩ := exec_write_undisturbed hprog hquiet hroom
  exact ⟨_, hexec, rfl, hsched, rfl⟩

end Sys2Proof.Machine
end

section
/-! SUPPORT. The read program from end to end (43_read.md R220-R224): what it logs, one bank answer for each
group. -/

namespace Sys2Proof.Machine

open Sys2Proof.Config (Params)

/-! ## Free values one after another -/

/-- The next `j + k` free values are the next `j` and then the `k` after those. -/
theorem Draws.take_add {α : Type} (free : Nat → α) (j k : Nat) (d : Draws α) :
    d.take free (j + k) = d.take free j ++ (Draws.rest^[j] d).take free k := by
  induction j generalizing d with
  | zero => simp [Draws.take]
  | succ j ih => rw [Nat.succ_add, Draws.take, Draws.take, ih, Function.iterate_succ_apply, List.cons_append]

theorem Draws.take_length {α : Type} (free : Nat → α) (k : Nat) (d : Draws α) :
    (d.take free k).length = k := by
  induction k generalizing d with
  | zero => rfl
  | succ k ih => rw [Draws.take, List.length_cons, ih]

theorem State.answers_length (s : State) (k : Nat) : (s.answers k).length = k := Draws.take_length _ _ _

/-! ## What items log of the bank's answers -/

/-- The items take the next `k` bank answers `vs` and log `tx vs`, and the command goes on. -/
def Logs (items : List Item) (k : Nat) (tx : List Word → List Txn) : Prop :=
  ∀ s, (effects items s).port = s.port.after (tx (s.answers k)) ∧
    (effects items s).env.bank = Draws.rest^[k] s.env.bank ∧
    (effects items s).regs.busy = s.regs.busy

theorem Logs.append {xs ys : List Item} {j k : Nat} {tx ty tz : List Word → List Txn} (hx : Logs xs j tx)
    (hy : Logs ys k ty) (hz : ∀ vs ws, vs.length = j → tz (vs ++ ws) = tx vs ++ ty ws) :
    Logs (xs ++ ys) (j + k) tz := by
  intro s
  obtain ⟨hxport, hxbank, hxbusy⟩ := hx s
  obtain ⟨hyport, hybank, hybusy⟩ := hy (effects xs s)
  have hanswers : s.answers (j + k) = s.answers j ++ (effects xs s).answers k := by
    rw [State.answers, Draws.take_add, ← hxbank]
    rfl
  rw [effects_append]
  refine ⟨?_, ?_, hybusy.trans hxbusy⟩
  · rw [hyport, hxport, hanswers, hz _ _ (s.answers_length j), Port.after_append]
  · rw [hybank, hxbank, ← Function.iterate_add_apply, Nat.add_comm]

/-- Items that take no answer, before items that do. -/
theorem Logs.append_left {xs ys : List Item} {k : Nat} {tx : List Txn} {ty : List Word → List Txn}
    (hx : Logs xs 0 fun _ => tx) (hy : Logs ys k ty) : Logs (xs ++ ys) k fun vs => tx ++ ty vs := by
  have h := hx.append hy (tz := fun vs => tx ++ ty vs) fun vs ws hvs => by
    rw [List.length_eq_zero_iff.1 hvs, List.nil_append]
  rwa [Nat.zero_add] at h

/-- Items that take no answer, after items that do. -/
theorem Logs.append_right {xs ys : List Item} {k : Nat} {tx : List Word → List Txn} {ty : List Txn}
    (hx : Logs xs k tx) (hy : Logs ys 0 fun _ => ty) : Logs (xs ++ ys) k fun vs => tx vs ++ ty := by
  intro s
  obtain ⟨hxport, hxbank, hxbusy⟩ := hx s
  obtain ⟨hyport, hybank, hybusy⟩ := hy (effects xs s)
  rw [effects_append]
  exact ⟨by rw [hyport, hxport, Port.after_append], hybank.trans hxbank, hybusy.trans hxbusy⟩

theorem Logs.nil (f : Word → List Txn) : Logs [] 0 (·.flatMap f) :=
  fun s => ⟨by simp [effects, Port.after, State.answers, Draws.take], rfl, rfl⟩

/-- Parts that log the same for each answer, one after another. -/
theorem Logs.flatMap {α : Type} (l : List α) {f : α → List Item} {g : Word → List Txn} {k : Nat}
    (h : ∀ x, Logs (f x) k (·.flatMap g)) : Logs (l.flatMap f) (l.length * k) (·.flatMap g) := by
  induction l with
  | nil =>
    rw [List.length_nil, Nat.zero_mul]
    exact .nil g
  | cons x r ih =>
    rw [List.length_cons, Nat.succ_mul, Nat.add_comm]
    exact (h x).append ih fun vs ws _ => List.flatMap_append

theorem logs_of_logged {items : List Item} {tx : List Txn}
    (h : ∀ s, ∃ d c, effects items s = s.logged tx d c) : Logs items 0 fun _ => tx := fun s => by
  obtain ⟨d, c, hs⟩ := h s
  rw [hs]
  exact ⟨rfl, rfl, rfl⟩

theorem Port.after_nil (p : Port) : p.after [] = p := by simp [Port.after]

/-- Items that leave the port and the bank's answers alone log nothing. -/
theorem logs_nothing {items : List Item} (hport : ∀ s, (effects items s).port = s.port)
    (hbank : ∀ s, (effects items s).env.bank = s.env.bank)
    (hbusy : ∀ s, (effects items s).regs.busy = s.regs.busy) : Logs items 0 fun _ => [] :=
  fun s => ⟨by rw [hport, Port.after_nil], hbank s, hbusy s⟩

theorem driveItems_logs (p : Pin) (l : Bool) : Logs (driveItems p l) 0 fun _ => driveTrace p l := by
  cases p with
  | none => exact .nil fun _ => []
  | some i => cases l <;> exact fun s => ⟨rfl, rfl, rfl⟩

/-! ## The program up to its `finish` -/

/-- The line of RDREG before its `finish` (R229). -/
def readLast : Sink → List Item
  | .buffer => []
  | .rdval => [.loc .loadRdval]

/-- `READ` and the lines after it up to `finish` (R220, R228, R229). -/
def readLines (par : Params) (q : Slot) (kind : Kind) (n : Nat) (snk : Sink) : List Item :=
  readFront par q kind n snk ++ readLast snk

theorem readItems_eq_readLines (par : Params) (q : Slot) (kind : Kind) (n : Nat) (snk : Sink) :
    readItems par q kind n snk = readLines par q kind n snk ++ finishOnly .ok := by
  rw [readItems_eq, readLines, List.append_assoc]
  cases snk <;> rfl

theorem readGroupItems_logs (par : Params) (q : Slot) (k : Nat) :
    Logs (readGroupItems par q k) 1 (·.flatMap (readGroupTrace par q)) := by
  intro s
  have hanswers : s.answers 1 = [s.env.bank.value Config.bank] := rfl
  simp only [readGroupItems, effects_append, effects_applyItems, hanswers, List.flatMap_singleton,
    readGroupTrace, Port.after_append]
  exact ⟨rfl, rfl, rfl⟩

theorem readUnit_logs (par : Params) (q : Slot) (snk : Sink) (i : Nat) :
    Logs (readUnit par q snk i) q.bpc.groups (·.flatMap (readGroupTrace par q)) := by
  have hstart : Logs [.loc (.startUnit i)] 0 fun _ => [] := 
    logs_nothing (fun _ => rfl) (fun _ => rfl) fun _ => rfl
  have hsink : Logs (sinkItems snk i) 0 fun _ => [] := by
    cases snk <;> exact logs_nothing (fun _ => rfl) (fun _ => rfl) fun _ => rfl
  have hgroups := Logs.flatMap (List.range q.bpc.groups) (readGroupItems_logs par q)
  rw [List.length_range, Nat.mul_one] at hgroups
  simpa [readUnit] using (hstart.append_left hgroups).append_right hsink

/-- The transaction before the first WAIT of a read, in variant A only (R220, R226). -/
def directionTrace (par : Params) (q : Slot) : List Txn :=
  match q.variant with
  | .a => driveTrace q.rwrd (devLvl par)
  | .b => []

theorem readTrace_eq (par : Params) (q : Slot) (kind : Kind) : readTrace par q kind = fun vs =>
    directionTrace par q ++ (applyTrace (q.readSetup par kind) q.assertOrder ++
      (vs.flatMap (readGroupTrace par q) ++ driveTrace q.rwrd (q.hostLvl par))) := by
  funext vs
  rw [readTrace, List.append_assoc, List.append_assoc]
  rfl

theorem readLines_logs (par : Params) (q : Slot) (kind : Kind) (n : Nat) (snk : Sink) :
    Logs (readLines par q kind n snk) (n * q.bpc.groups) (readTrace par q kind) := by
  have hdirection : Logs (readDirection par q) 0 fun _ => directionTrace par q := by
    unfold readDirection directionTrace
    cases q.variant
    · exact driveItems_logs _ _
    · exact .nil fun _ => []
  have hsetup : Logs (.wait :: applyItems (q.readSetup par kind) q.assertOrder ++ [.op (.adv q.tSetup)]) 0
      fun _ => applyTrace (q.readSetup par kind) q.assertOrder :=
    logs_of_logged fun s => ⟨_, _, by
      rw [List.cons_append, effects_cons, effects_append, effects_applyItems]
      rfl⟩
  have hlast : Logs (readLast snk) 0 fun _ => [] := by
    cases snk <;> exact logs_nothing (fun _ => rfl) (fun _ => rfl) fun _ => rfl
  have hunits := Logs.flatMap (List.range n) (readUnit_logs par q snk)
  rw [List.length_range] at hunits
  have h := (((hdirection.append_left (hsetup.append_left hunits)).append_right
    (driveItems_logs q.rwrd (q.hostLvl par))).append_right hlast)
  simpa [readLines, readFront, readTrace_eq] using h

/-! ## RDDATA and RDREG -/

/-- RDDATA fails a check or runs the read program (R228, R252). -/
theorem programOf_rddata (s : State) (p n : Nat) :
    FailsCheck (programOf (.rddata p n) s) ∨
      ((s.slotAt p).rwrd ≠ none ∧ programOf (.rddata p n) s =
        readLines s.params (s.slotAt p) .data n .buffer ++ finishOnly .ok) := by
  simp only [programOf, rddataProgram, withSlot]
  split
  · exact .inl ⟨_, by decide, rfl⟩
  · split
    · split
      · exact .inl ⟨_, by decide, rfl⟩
      · next hrw =>
        split
        · exact .inl ⟨_, by decide, rfl⟩
        · exact .inr ⟨hrw, readItems_eq_readLines ..⟩
    · exact .inl ⟨_, by decide, rfl⟩

/-- RDREG fails a check or runs the read program (R229, R252). -/
theorem programOf_rdreg (s : State) (p : Nat) :
    FailsCheck (programOf (.rdreg p) s) ∨
      ((s.slotAt p).rwrd ≠ none ∧ programOf (.rdreg p) s =
        readLines s.params (s.slotAt p) .cmdreg 1 .rdval ++ finishOnly .ok) := by
  simp only [programOf, rdregProgram, withSlot]
  split
  · exact .inl ⟨_, by decide, rfl⟩
  · split
    · split
      · exact .inl ⟨_, by decide, rfl⟩
      · next hrw => exact .inr ⟨hrw, readItems_eq_readLines ..⟩
    · exact .inl ⟨_, by decide, rfl⟩

/-! ## The port after a completed transfer -/

section
variable {i : Instr} {s t : State} {q : Slot} {kind : Kind} {n : Nat}

theorem port_of_write_done {src : ByteSource}
    (hprog : FailsCheck (programOf i s.begin) ∨
      programOf i s.begin = writeFront s.params q kind n src ++ finishOnly .ok)
    (h : exec i s = .next t) (hd : t.doneOk) :
    t.port = s.port.after (writeTrace s.params q kind ((List.range n).map (s.byteAt src))) := by
  obtain ⟨u, hu, rfl⟩ := exec_finished (checks_passed_of_doneOk hprog h hd) h hd.1
  rw [finish_writeFront hu]
  rfl

theorem port_of_read_done {snk : Sink}
    (hprog : FailsCheck (programOf i s.begin) ∨
      (q.rwrd ≠ none ∧ programOf i s.begin = readLines s.params q kind n snk ++ finishOnly .ok))
    (h : exec i s = .next t) (hd : t.doneOk) :
    q.rwrd ≠ none ∧ t.port = s.port.after (readTrace s.params q kind (s.answers (n * q.bpc.groups))) := by
  obtain ⟨hrw, hlines⟩ := checks_passed_of_doneOk hprog h hd
  obtain ⟨u, hu, rfl⟩ := exec_finished hlines h hd.1
  obtain ⟨hport, _, hbusy⟩ := readLines_logs s.params q kind n snk s.begin
  have htime := runAll_effects hbusy hu
  rw [State.whileBusy_busy u _ (by rw [htime]; exact hbusy), htime]
  exact ⟨hrw, hport⟩

end

end Sys2Proof.Machine
end

section
/-! SUPPORT. The port after a completed command, from its log: how many transactions (42_write.md R190,
43_read.md R220), which pins are outputs (R200), and the levels the lines are left at (R204). -/

namespace Sys2Proof.Machine

open Sys2Proof.Config (Params)

/-! ## The log of each transfer -/

section
variable {s t : State} {p n : Nat} {imm : Byte}

theorem port_of_wrdata_done (h : exec (.wrdata p n) s = .next t) (hd : t.doneOk) :
    t.port = s.port.after (writeTrace s.params (s.slotAt p) .data ((List.range n).map s.bufRead)) :=
  port_of_write_done (programOf_wrdata s.begin p n) h hd

theorem port_of_wrcmd_done (h : exec (.wrcmd p imm) s = .next t) (hd : t.doneOk) :
    t.port = s.port.after (writeTrace s.params (s.slotAt p) .cmdreg [imm]) :=
  port_of_write_done (programOf_wrcmd s.begin p imm) h hd

theorem port_of_rddata_done (h : exec (.rddata p n) s = .next t) (hd : t.doneOk) :
    (s.slotAt p).rwrd ≠ none ∧ t.port = s.port.after
      (readTrace s.params (s.slotAt p) .data (s.answers (n * (s.slotAt p).bpc.groups))) :=
  port_of_read_done (programOf_rddata s.begin p n) h hd

theorem port_of_rdreg_done (h : exec (.rdreg p) s = .next t) (hd : t.doneOk) :
    (s.slotAt p).rwrd ≠ none ∧ t.port = s.port.after
      (readTrace s.params (s.slotAt p) .cmdreg (s.answers (1 * (s.slotAt p).bpc.groups))) :=
  port_of_read_done (programOf_rdreg s.begin p) h hd

end

/-! ## Counts -/

theorem length_flatMap_const {α β : Type} (l : List α) (f : α → List β) (k : Nat)
    (h : ∀ x, (f x).length = k) : (l.flatMap f).length = l.length * k := by
  simp [List.length_flatMap, h]

theorem applyTrace_length (m : Masks) (o : Order) : (applyTrace m o).length = 2 := by cases o <;> rfl

theorem driveTrace_length {p : Pin} (hp : p ≠ none) (l : Bool) : (driveTrace p l).length = 1 := by
  cases p with
  | none => exact absurd rfl hp
  | some i => cases l <;> rfl

theorem writeTrace_length (par : Params) (q : Slot) (kind : Kind) (bytes : List Byte) :
    (writeTrace par q kind bytes).length = 6 + 4 * bytes.length * q.bpc.groups := by
  have hgroup : ∀ g, (writeGroupTrace q g).length = 4 := fun g => by
    rw [writeGroupTrace, List.length_append, applyTrace_length, applyTrace_length]
  have hbyte : ∀ b, (writeByteTrace q b).length = q.bpc.groups * 4 := fun b => by
    rw [writeByteTrace, length_flatMap_const _ _ 4 fun k => hgroup _, List.length_range]
  have hbytes : (bytes.flatMap (writeByteTrace q)).length = bytes.length * (q.bpc.groups * 4) :=
    length_flatMap_const _ _ _ hbyte
  simp only [writeTrace_eq, openingTrace, closingTrace, List.length_append, List.length_cons,
    applyTrace_length, hbytes]
  ring

/-- The transactions of a read beside those of its groups: variant A writes the direction line first (R220). -/
def readExtras (q : Slot) : Nat :=
  match q.variant with
  | .a => 4
  | .b => 3

theorem readTrace_length (par : Params) {q : Slot} (hq : q.rwrd ≠ none) (kind : Kind) (vs : List Word) :
    (readTrace par q kind vs).length = readExtras q + 5 * vs.length := by
  have hgroups : (vs.flatMap (readGroupTrace par q)).length = vs.length * 5 :=
    length_flatMap_const _ _ 5 fun v => by
      simp only [readGroupTrace, List.length_append, applyTrace_length, List.length_singleton]
  simp only [readTrace_eq, List.length_append, applyTrace_length, hgroups, driveTrace_length hq]
  unfold directionTrace readExtras
  cases q.variant
  · simp only [driveTrace_length hq]
    omega
  · simp only [List.length_nil]
    omega

theorem Port.after_tx_length (x : Port) (l : List Txn) : (x.after l).tx.length = x.tx.length + l.length :=
  List.length_append

/-- Settles O43: the lengths of the logs. -/
theorem transactionCounts : Obligations.TransactionCounts := by
  intro s t p n imm q hq hd
  subst hq
  refine ⟨fun h => ?_, fun h => ?_, fun h => ?_, fun h => ?_⟩
  · rw [port_of_wrdata_done h hd, Port.after_tx_length, writeTrace_length, List.length_map, List.length_range]
  · rw [port_of_wrcmd_done h hd, Port.after_tx_length, writeTrace_length, List.length_singleton]
  · obtain ⟨hrw, hport⟩ := port_of_rddata_done h hd
    rw [hport, Port.after_tx_length, readTrace_length _ hrw, State.answers_length, ← Nat.mul_assoc]
    rfl
  · obtain ⟨hrw, hport⟩ := port_of_rdreg_done h hd
    rw [hport, Port.after_tx_length, readTrace_length _ hrw, State.answers_length, Nat.one_mul]
    rfl

/-! ## Directions -/

/-- An item that sets no pin's mode. -/
def Item.setsNoMode : Item → Bool
  | .op (.mode _ _) => false
  | _ => true

theorem localEffect_dir (l : Local) (s : State) : (localEffect l s).port.dir = s.port.dir := by
  cases l
  case needGpio => obtain ⟨e, he | he⟩ := s.needGpio_cases <;> simp [localEffect, he]
  all_goals rfl

theorem opEffect_dir {o : Op} (ho : (Item.op o).setsNoMode = true) (s : State) :
    (opEffect o s).port.dir = s.port.dir := by
  cases o
  case mode m d => cases ho
  all_goals rfl

/-- A command whose program sets no mode changes no direction, interrupted or not. -/
theorem exec_dir {i : Instr} {s t : State} (hi : (programOf i s.begin).all Item.setsNoMode = true)
    (h : exec i s = .next t) : t.port.dir = s.port.dir := by
  rw [exec_eq_runFrom] at h
  have hdir : t.port.dir = s.begin.port.dir :=
    runFrom_rel (fun u v => v.port.dir = u.port.dir) (fun _ => rfl) (fun _ _ _ h k => k.trans h) _
      (fun l _ u => localEffect_dir l u) (fun o ho u => opEffect_dir (List.all_eq_true.1 hi _ ho) u)
      (fun u => by rw [u.bumpUpc_same.port]) (fun u v hw => by rw [(u.waitStart_same v hw).port])
      (fun u v hr => by rw [(u.spinRead_same v hr).port]) _ t h
  exact hdir

theorem applyItems_setNoMode (m : Masks) (o : Order) : (applyItems m o).all Item.setsNoMode = true := by
  cases o <;> rfl

theorem driveItems_setNoMode (p : Pin) (l : Bool) : (driveItems p l).all Item.setsNoMode = true := by
  cases p with
  | none => rfl
  | some i => cases l <;> rfl

theorem readLines_setNoMode (par : Params) (q : Slot) (kind : Kind) (n : Nat) (snk : Sink) :
    (readLines par q kind n snk).all Item.setsNoMode = true := by
  have hdirection : (readDirection par q).all Item.setsNoMode = true := by
    unfold readDirection
    cases q.variant
    · exact driveItems_setNoMode _ _
    · rfl
  have hunit : ∀ i, (readUnit par q snk i).all Item.setsNoMode = true := fun i => by
    have hsink : (sinkItems snk i).all Item.setsNoMode = true := by cases snk <;> rfl
    simp [readUnit, readGroupItems, applyItems_setNoMode, hsink, Item.setsNoMode]
  have hlast : (readLast snk).all Item.setsNoMode = true := by cases snk <;> rfl
  simp only [readLines, readFront, List.all_append, List.all_cons, List.all_flatMap, hdirection, hunit, hlast,
    applyItems_setNoMode, driveItems_setNoMode]
  simp [Item.setsNoMode]

theorem FailsCheck.setNoMode {items : List Item} (h : FailsCheck items) :
    items.all Item.setsNoMode = true := by
  obtain ⟨r, _, rfl⟩ := h
  rfl

theorem programOf_read_setNoMode {s : State} {p n : Nat} {i : Instr} (hi : i = .rddata p n ∨ i = .rdreg p) :
    (programOf i s).all Item.setsNoMode = true := by
  rcases hi with rfl | rfl
  · rcases programOf_rddata s p n with hfail | ⟨_, hlines⟩
    · exact hfail.setNoMode
    · rw [hlines, List.all_append, readLines_setNoMode]
      rfl
  · rcases programOf_rdreg s p with hfail | ⟨_, hlines⟩
    · exact hfail.setNoMode
    · rw [hlines, List.all_append, readLines_setNoMode]
      rfl

theorem disjoint_and_not (d m : Word) : disjoint (d &&& ~~~m) m = true := by
  refine decide_eq_true (BitVec.eq_of_getLsbD_eq fun i hi => ?_)
  simp [hi]

/-- A log whose last mode change makes the lines inputs leaves them inputs. -/
theorem after_dir_disjoint (x : Port) (l r : List Txn) (m : Word)
    (hr : ∀ d, r.foldl Txn.dirAfter d = d) : disjoint (x.after (l ++ .mode m .input :: r)).dir m = true := by
  have hdir : (x.after (l ++ .mode m .input :: r)).dir = l.foldl Txn.dirAfter x.dir &&& ~~~m := by
    simp only [Port.after, List.foldl_append, List.foldl_cons, hr, Txn.dirAfter]
  rw [hdir]
  exact disjoint_and_not _ _

theorem applyTrace_dir (m : Masks) (o : Order) (d : Word) : (applyTrace m o).foldl Txn.dirAfter d = d := by
  cases o <;> rfl

theorem writeTrace_dir_disjoint (x : Port) (par : Params) (q : Slot) (kind : Kind) (bytes : List Byte) :
    disjoint (x.after (writeTrace par q kind bytes)).dir q.dataMask = true := by
  rw [writeTrace_eq]
  exact after_dir_disjoint x _ _ _ (applyTrace_dir _ _)

theorem createTrace_dir_disjoint (x : Port) (par : Params) (q : Slot) :
    disjoint (x.after (createTrace par q)).dir q.dataMask = true := by
  rw [createTrace, List.append_cons]
  exact after_dir_disjoint x _ [] _ fun _ => rfl

/-- CREATE fails its check or runs its lines (R133, R252). -/
theorem programOf_create (s : State) (p : Nat) :
    FailsCheck (programOf (.create p) s.begin) ∨ programOf (.create p) s.begin =
      (.loc .needGpio :: .loc (.latch p s.regs.staging.profile) ::
        createLines s.params s.regs.staging.profile) ++ finishOnly .ok := by
  simp only [programOf, createProgram, withSlot]
  split
  · exact .inl ⟨_, by decide, rfl⟩
  · exact .inr (createItems_eq ..)

theorem port_of_create_done {s t : State} {p : Nat} (h : exec (.create p) s = .next t) (hd : t.doneOk) :
    t.port = s.port.after (createTrace s.params s.regs.staging.profile) := by
  obtain ⟨u, hu, rfl⟩ := exec_finished (checks_passed_of_doneOk (programOf_create s p) h hd) h hd.1
  rw [runAll_loc _ _ _ rfl, localEffect] at hu
  cases havail : s.env.avail.value Config.gpioAvail with
  | false =>
    rw [State.needGpio_of_unavail (s := s.begin) havail, runAll_idle _ _ rfl] at hu
    cases hu
    cases hd.2
  | true =>
    rw [State.needGpio_of_avail (s := s.begin) havail, runAll_loc _ _ _ rfl] at hu
    obtain ⟨_, _, hlines⟩ := createLines_emits s.params s.regs.staging.profile (localEffect
      (.latch p s.regs.staging.profile) { s.begin with env := { s.env with avail := s.env.avail.rest } }) rfl
    cases hlines.symm.trans hu
    rw [State.whileBusy_busy _ _ rfl]
    rfl

/-- Settles O45: reads hold no MODE; a write's and CREATE's last MODE makes the data lines inputs. -/
theorem dataLinesAreReleased : Obligations.DataLinesAreReleased := by
  intro s t p n imm
  refine ⟨?_, ?_, fun h hd => ?_⟩
  · rintro (h | h)
    · exact exec_dir (programOf_read_setNoMode (n := n) (.inl rfl)) h
    · exact exec_dir (programOf_read_setNoMode (n := n) (.inr rfl)) h
  · rintro (h | h) hd
    · rw [port_of_wrdata_done h hd]
      exact writeTrace_dir_disjoint _ _ _ _ _
    · rw [port_of_wrcmd_done h hd]
      exact writeTrace_dir_disjoint _ _ _ _ _
  · rw [port_of_create_done h hd]
    exact createTrace_dir_disjoint _ _ _

end Sys2Proof.Machine
end

section
/-! SUPPORT. What the transfers leave alone, interrupted or not: the slots, RDVAL, and BUF but for the bytes that
RDDATA stores (42_write.md R205, R206, 43_read.md R228, R229). -/

namespace Sys2Proof.Machine

open Sys2Proof.Config (Params)

/-! ## The bytes of BUF a command may write -/

/-- How many bytes of BUF a command may write, from index 0 on (R228). -/
def storesOf : Instr → Nat
  | .rddata _ n => n
  | _ => 0

/-- No line of a write depends on P_BUF_SIZE. -/
theorem writeItems_of_bufSize (par : Params) (k : Nat) (q : Slot) (kind : Kind) (n : Nat)
    (src : ByteSource) : writeItems { par with bufSize := k } q kind n src = writeItems par q kind n src := rfl

/-- Nor does one of a read. -/
theorem readItems_of_bufSize (par : Params) (k : Nat) (q : Slot) (kind : Kind) (n : Nat) (snk : Sink) :
    readItems { par with bufSize := k } q kind n snk = readItems par q kind n snk := rfl

theorem FailsCheck.fits {items : List Item} (h : FailsCheck items) (par : Params) (c : Except Reject Instr) :
    ∀ x ∈ items, x.Fits par c := by
  obtain ⟨r, _, rfl⟩ := h
  exact finishOnly_fits par c r

/-- A transfer's program fits a BUF of no more bytes than its command may write. -/
theorem programOf_fits_stores {i : Instr} {p n : Nat} {imm : Byte} (s : State)
    (hi : i = .wrdata p n ∨ i = .wrcmd p imm ∨ i = .rddata p n ∨ i = .rdreg p) :
    ∀ x ∈ programOf i s, x.Fits { s.params with bufSize := storesOf i } (.ok i) := by
  rcases hi with rfl | rfl | rfl | rfl
  · rcases programOf_wrdata s p n with hfail | hprog
    · exact hfail.fits _ _
    · rw [hprog, ← writeItems_eq, ← writeItems_of_bufSize _ 0]
      exact writeItems_fits _ _ _ _ _ _
  · rcases programOf_wrcmd s p imm with hfail | hprog
    · exact hfail.fits _ _
    · rw [hprog, ← writeItems_eq, ← writeItems_of_bufSize _ 0]
      exact writeItems_fits _ _ _ _ _ _
  · rcases programOf_rddata s p n with hfail | ⟨_, hprog⟩
    · exact hfail.fits _ _
    · rw [hprog, ← readItems_eq_readLines, ← readItems_of_bufSize _ n]
      exact readItems_fits _ _ _ _ _ _ (fun _ => le_rfl) fun h => by cases h
  · rcases programOf_rdreg s p with hfail | ⟨_, hprog⟩
    · exact hfail.fits _ _
    · rw [hprog, ← readItems_eq_readLines, ← readItems_of_bufSize _ 0]
      exact readItems_fits _ _ _ _ _ _ (fun h => by cases h) fun _ => ⟨p, rfl⟩

/-! ## The frame -/

/-- What a transfer keeps that may write the first `k` bytes of BUF: the slots, and BUF from `k` on. -/
structure State.TransferKeeps (k : Nat) (s t : State) : Prop where
  runs : s.RunKeeps t
  slots : t.slots = s.slots
  buf : ∀ a, k ≤ a → t.bufRead a = s.bufRead a

section
variable {k : Nat} {s t u : State}

theorem State.TransferKeeps.of_buf (hruns : s.RunKeeps t) (hslots : t.slots = s.slots)
    (hbuf : t.buf = s.buf) : s.TransferKeeps k t :=
  ⟨hruns, hslots, fun a _ => State.bufRead_congr s t hbuf hruns.bufEpoch a⟩

theorem State.TransferKeeps.trans (h : s.TransferKeeps k t) (g : t.TransferKeeps k u) : s.TransferKeeps k u :=
  ⟨h.runs.trans g.runs, g.slots.trans h.slots, fun a ha => (g.buf a ha).trans (h.buf a ha)⟩

theorem State.SameButTime.transferKeeps (h : s.SameButTime t) : s.TransferKeeps k t :=
  .of_buf h.runKeeps h.slots h.buf

/-- A line of a transfer latches and invalidates no slot, and stores in the first bytes of BUF only. -/
theorem localEffect_transferKeeps {par : Params} {c : Except Reject Instr} {l : Local} (s : State)
    (hfit : (Item.loc l).Fits par c) (hcreate : ∀ p, c ≠ .ok (.create p))
    (hrelease : ∀ p, c ≠ .ok (.release p)) : s.TransferKeeps par.bufSize (localEffect l s) := by
  have hruns := localEffect_runKeeps l s
  cases l
  case needGpio =>
    obtain ⟨e, he | he⟩ := s.needGpio_cases <;>
      exact .of_buf hruns (by simp [localEffect, he]) (by simp [localEffect, he])
  case latch p q => exact absurd hfit.1 (hcreate p)
  case invalidate p => exact absurd hfit (hrelease p)
  case sinkBuf i =>
    have hi : i < par.bufSize := hfit
    exact ⟨hruns, rfl, fun a ha => State.bufRead_bufWrite_other s i a _ (by omega)⟩
  all_goals exact .of_buf hruns rfl rfl

theorem opEffect_transferKeeps (o : Op) (s : State) : s.TransferKeeps k (opEffect o s) :=
  .of_buf (opEffect_runKeeps o s) (opEffect_slots o s) (by cases o <;> rfl)

/-- A transfer keeps the slots, and BUF but for the bytes it may write, interrupted or not. -/
theorem exec_transferKeeps {i : Instr} {p n : Nat} {imm : Byte}
    (hi : i = .wrdata p n ∨ i = .wrcmd p imm ∨ i = .rddata p n ∨ i = .rdreg p)
    (h : exec i s = .next t) : s.begin.TransferKeeps (storesOf i) t := by
  have hcreate : ∀ j, i ≠ .create j := by rcases hi with rfl | rfl | rfl | rfl <;> simp
  have hrelease : ∀ j, i ≠ .release j := by rcases hi with rfl | rfl | rfl | rfl <;> simp
  rw [exec_eq_runFrom] at h
  exact runFrom_rel (State.TransferKeeps (storesOf i)) (fun u => .of_buf (.rfl' u) rfl rfl)
    (fun _ _ _ => .trans) _
    (fun l hl u => localEffect_transferKeeps u (programOf_fits_stores s.begin hi _ hl)
      (fun j hj => hcreate j (Except.ok.inj hj)) (fun j hj => hrelease j (Except.ok.inj hj)))
    (fun o _ u => opEffect_transferKeeps o u) (fun u => u.bumpUpc_same.transferKeeps)
    (fun u v hw => (u.waitStart_same v hw).transferKeeps)
    (fun u v hr => (u.spinRead_same v hr).transferKeeps) _ t h

/-- Every command but RDREG keeps RDVAL (R35). -/
theorem exec_rdval {i : Instr} (hi : ∀ p, i ≠ .rdreg p) (h : exec i s = .next t) :
    t.regs.rdval = s.regs.rdval := by
  have hno : Item.loc .loadRdval ∉ programOf i s.begin :=
    loadRdval_not_mem _ (.ok i) _ (programOf_fits i s.begin) fun p hp => hi p (Except.ok.inj hp)
  rw [exec_eq_runFrom, ← State.launch_eq_runFrom] at h
  rcases State.launch_next _ _ _ h with rfl | h
  · rfl
  · exact run_rdval _ hno s.begin t h

end

/-- Settles O47: acceptance changes none of these, and no line of a transfer does but RDDATA's and RDREG's
own. -/
theorem transfersLeaveTheRestAlone : Obligations.TransfersLeaveTheRestAlone := by
  intro i s t p n imm hi h
  obtain ⟨hruns, hslots, hbuf⟩ := exec_transferKeeps hi h
  refine ⟨hruns.cmd, hruns.lost, hruns.ptr, hruns.staging, fun hne => exec_rdval (fun j hj => ?_) h, hslots,
    hruns.bufEpoch, hruns.params, hruns.script, hruns.reads, fun hne a => hbuf a ?_, fun he a ha => hbuf a ?_⟩
  · rcases hi with rfl | rfl | rfl | rfl
    · cases hj
    · cases hj
    · cases hj
    · exact hne rfl
  · have hzero : storesOf i = 0 := by
      rcases hi with rfl | rfl | rfl | rfl
      · rfl
      · rfl
      · exact absurd rfl hne
      · rfl
    rw [hzero]
    exact Nat.zero_le a
  · rw [he]
    exact ha

end Sys2Proof.Machine
end

section
/-! SUPPORT. The levels the lines are left at after a completed transfer, from its log: the last write of a line
decides (42_write.md R204, 40_profile.md R136). -/

namespace Sys2Proof.Machine

open Sys2Proof.Config (Params)

/-! ## What a log does to one pin -/

/-- The log does not change the level of pin `x`. -/
def KeepsPin (x : Nat) (l : List Txn) : Prop :=
  ∀ o : Word, (l.foldl Txn.outAfter o).getLsbD x = o.getLsbD x

/-- The log leaves pin `x` at level `b`, wherever it was. -/
def LeavesPin (x : Nat) (b : Bool) (l : List Txn) : Prop :=
  ∀ o : Word, (l.foldl Txn.outAfter o).getLsbD x = b

section
variable {x : Nat} {b : Bool} {l r : List Txn}

theorem KeepsPin.nil : KeepsPin x [] := fun _ => rfl

theorem KeepsPin.append (hl : KeepsPin x l) (hr : KeepsPin x r) : KeepsPin x (l ++ r) := fun o => by
  rw [List.foldl_append, hr, hl]

theorem KeepsPin.flatMap {α : Type} {f : α → List Txn} (h : ∀ a, KeepsPin x (f a)) (as : List α) :
    KeepsPin x (as.flatMap f) := by
  induction as with
  | nil => exact .nil
  | cons a as ih => exact (h a).append ih

theorem LeavesPin.append_keeps (hl : LeavesPin x b l) (hr : KeepsPin x r) : LeavesPin x b (l ++ r) :=
  fun o => by rw [List.foldl_append, hr, hl]

theorem LeavesPin.append_left (l : List Txn) (hr : LeavesPin x b r) : LeavesPin x b (l ++ r) := fun o => by
  rw [List.foldl_append, hr]

theorem LeavesPin.flatMap {α : Type} {f : α → List Txn} (h : ∀ a, LeavesPin x b (f a)) {as : List α}
    (has : as ≠ []) : LeavesPin x b (as.flatMap f) := by
  induction as with
  | nil => exact absurd rfl has
  | cons a as ih =>
    rw [List.flatMap_cons]
    by_cases hnil : as = []
    · rw [hnil]
      exact (h a).append_keeps .nil
    · exact (ih hnil).append_left _

theorem keepsPin_mode (x : Nat) (m : Word) (d : PinMode) : KeepsPin x [.mode m d] := fun _ => rfl

theorem keepsPin_read (x : Nat) (v : Word) : KeepsPin x [.read v] := fun _ => rfl

theorem driveTxn_outAfter (l : Bool) (m o : Word) (x : Nat) :
    ((driveTxn l m).outAfter o).getLsbD x = if m.getLsbD x then l else o.getLsbD x := by
  cases hm : m.getLsbD x with
  | true => cases l <;> simp [driveTxn, Txn.outAfter, hm]
  | false =>
    cases l with
    | true => simp [driveTxn, Txn.outAfter, hm]
    | false => simpa [driveTxn, Txn.outAfter, hm] using BitVec.lt_of_getLsbD

/-! ## What the pieces of a log do to one pin -/

/-- Either order of an APPLY is a write at one level and then one at the other (R164). -/
theorem applyTrace_cases (m : Masks) (o : Order) (b : Bool) :
    applyTrace m o = [driveTxn b (m.level b), driveTxn (!b) (m.level (!b))] ∨
      applyTrace m o = [driveTxn (!b) (m.level (!b)), driveTxn b (m.level b)] := by
  cases b with
  | true => cases o with
    | clrThenSet => exact .inr rfl
    | setThenClr => exact .inl rfl
  | false => cases o with
    | clrThenSet => exact .inl rfl
    | setThenClr => exact .inr rfl

theorem applyTrace_keeps {m : Masks} (o : Order) (hm : m.Spares x) : KeepsPin x (applyTrace m o) := by
  intro w
  rcases applyTrace_cases m o true with heq | heq <;>
    simp only [heq, List.foldl_cons, List.foldl_nil, driveTxn_outAfter, hm _, Bool.false_eq_true, if_false]

theorem applyTrace_leaves {m : Masks} (o : Order) (hm : m.Takes x b) : LeavesPin x b (applyTrace m o) := by
  obtain ⟨hat, hnot⟩ := hm
  intro w
  rcases applyTrace_cases m o b with heq | heq <;>
    simp only [heq, List.foldl_cons, List.foldl_nil, driveTxn_outAfter, hat, hnot, Bool.false_eq_true, if_true,
      if_false]

theorem driveTrace_some (i : Fin 28) (l : Bool) :
    driveTrace (some i) l = [driveTxn l (pinBit (some i))] := by cases l <;> rfl

theorem driveTrace_keeps {p : Pin} (l : Bool) (hx : (pinBit p).getLsbD x = false) :
    KeepsPin x (driveTrace p l) := by
  cases p with
  | none => exact .nil
  | some i =>
    intro o
    rw [driveTrace_some, List.foldl_cons, List.foldl_nil, driveTxn_outAfter, hx]
    rfl

theorem driveTrace_leaves {p : Pin} (l : Bool) (hx : (pinBit p).getLsbD x = true) :
    LeavesPin x l (driveTrace p l) := by
  cases p with
  | none => exact absurd hx (by simp [pinBit])
  | some i =>
    intro o
    rw [driveTrace_some, List.foldl_cons, List.foldl_nil, driveTxn_outAfter, hx]
    rfl

end

/-! ## The lines after a write -/

section
variable {x : Nat} {par : Params} {q : Slot} {kind : Kind} {bytes : List Byte}

theorem writeTrace_leaves_rwrd (hx : (pinBit q.rwrd).getLsbD x = true) :
    LeavesPin x (q.hostLvl par) (writeTrace par q kind bytes) :=
  .append_left _ (applyTrace_leaves _ (lvlMask_takes _ hx))

/-- The groups of a byte write the data pins and the strobe alone (R193, R194). -/
theorem writeByteTrace_keeps (b : Byte) (hdata : q.dataMask.getLsbD x = false)
    (henwr : (pinBit q.enwr).getLsbD x = false) : KeepsPin x (writeByteTrace q b) :=
  .flatMap (fun _ => (applyTrace_keeps _ ((q.dataMasks_spares _ hdata).or (lvlMask_spares _ henwr))).append
    (applyTrace_keeps _ ((q.dataMasks_spares _ hdata).or (lvlMask_spares _ henwr)))) _

theorem Slot.groups_ne_zero (q : Slot) : q.bpc.groups ≠ 0 := by cases q.bpc <;> decide

/-- A byte ends with the strobe deasserted (R194). -/
theorem writeByteTrace_leaves (b : Byte) (hdata : q.dataMask.getLsbD x = false)
    (henwr : (pinBit q.enwr).getLsbD x = true) : LeavesPin x q.nLvl (writeByteTrace q b) :=
  .flatMap (fun _ => .append_left _ (applyTrace_leaves _ (q.strobe_takes _ _ hdata henwr)))
    (by simpa using q.groups_ne_zero)

/-- The end of a write writes the direction line alone (R204). -/
theorem closingTrace_keeps (hrwrd : (pinBit q.rwrd).getLsbD x = false) : KeepsPin x (closingTrace par q) :=
  (keepsPin_mode x _ _).append (applyTrace_keeps _ (lvlMask_spares _ hrwrd))

theorem writeTrace_leaves_rscd (hx : (pinBit q.rscd).getLsbD x = true) (hdata : q.dataMask.getLsbD x = false)
    (henwr : (pinBit q.enwr).getLsbD x = false) (hrwrd : (pinBit q.rwrd).getLsbD x = false) :
    LeavesPin x (q.rsLvl par kind) (writeTrace par q kind bytes) := by
  have hsetup : (q.writeSetup par kind).Takes x (q.rsLvl par kind) :=
    (lvlMask_takes _ hx).or_left (lvlMask_spares _ hrwrd)
  have hopening : LeavesPin x (q.rsLvl par kind) (openingTrace par q kind) :=
    .append_left [_] (applyTrace_leaves _ hsetup)
  rw [writeTrace_eq]
  exact (hopening.append_keeps (.flatMap (fun b => writeByteTrace_keeps b hdata henwr) bytes)).append_keeps
    (closingTrace_keeps hrwrd)

theorem writeTrace_leaves_enwr (hbytes : bytes ≠ []) (hx : (pinBit q.enwr).getLsbD x = true)
    (hdata : q.dataMask.getLsbD x = false) (hrwrd : (pinBit q.rwrd).getLsbD x = false) :
    LeavesPin x q.nLvl (writeTrace par q kind bytes) := by
  rw [writeTrace_eq]
  exact (LeavesPin.append_left _
    (.flatMap (fun b => writeByteTrace_leaves b hdata hx) hbytes)).append_keeps (closingTrace_keeps hrwrd)

end

/-! ## The lines after a read -/

section
variable {x : Nat} {par : Params} {q : Slot} {kind : Kind} {vs : List Word}

theorem readTrace_leaves_rwrd (hx : (pinBit q.rwrd).getLsbD x = true) :
    LeavesPin x (q.hostLvl par) (readTrace par q kind vs) :=
  .append_left _ (driveTrace_leaves _ hx)

/-- The read strobe is one of the two lines (R131, R132, R225). -/
theorem Slot.rstb_eq (par : Params) (q : Slot) : q.rstb par = q.enwr ∨ q.rstb par = q.rwrd := by
  unfold Slot.rstb
  cases q.variant
  · exact .inl rfl
  · cases par.bReadStrobe
    · exact .inl rfl
    · exact .inr rfl

theorem readTrace_leaves_rscd (hx : (pinBit q.rscd).getLsbD x = true)
    (henwr : (pinBit q.enwr).getLsbD x = false) (hrwrd : (pinBit q.rwrd).getLsbD x = false) :
    LeavesPin x (q.rsLvl par kind) (readTrace par q kind vs) := by
  have hsetup : (q.readSetup par kind).Takes x (q.rsLvl par kind) := by
    refine (lvlMask_takes _ hx).or_left ?_
    cases q.variant
    · exact fun l => by cases l <;> exact BitVec.getLsbD_zero
    · exact lvlMask_spares _ hrwrd
  have hrstb : (pinBit (q.rstb par)).getLsbD x = false := by
    rcases q.rstb_eq par with h | h
    · rw [h, henwr]
    · rw [h, hrwrd]
  have hgroup : ∀ v, KeepsPin x (readGroupTrace par q v) := fun v =>
    ((applyTrace_keeps _ (lvlMask_spares _ hrstb)).append (keepsPin_read x v)).append
      (applyTrace_keeps _ (lvlMask_spares _ hrstb))
  rw [readTrace_eq]
  exact .append_left _ ((applyTrace_leaves _ hsetup).append_keeps
    ((KeepsPin.flatMap hgroup vs).append (driveTrace_keeps _ hrwrd)))

/-- The strobe is deasserted where the direction line is another, or idles at the strobe's own deasserted
level, as in variant B (R131, R132). -/
theorem readTrace_leaves_rstb (hvs : vs ≠ []) (hx : (pinBit (q.rstb par)).getLsbD x = true)
    (hrwrd : q.nLvl = q.hostLvl par ∨ (pinBit q.rwrd).getLsbD x = false) :
    LeavesPin x q.nLvl (readTrace par q kind vs) := by
  have hgroup : ∀ v, LeavesPin x q.nLvl (readGroupTrace par q v) := fun v =>
    .append_left _ (applyTrace_leaves _ (lvlMask_takes _ hx))
  rw [readTrace_eq]
  refine .append_left _ (.append_left _ ?_)
  cases hb : (pinBit q.rwrd).getLsbD x with
  | false => exact (LeavesPin.flatMap hgroup hvs).append_keeps (driveTrace_keeps _ hb)
  | true =>
    have hlevel : q.nLvl = q.hostLvl par := hrwrd.resolve_right (by rw [hb]; exact Bool.noConfusion)
    rw [hlevel]
    exact .append_left _ (driveTrace_leaves _ hb)

end

/-! ## After a completed transfer -/

theorem LeavesPin.out_after {x : Nat} {b : Bool} {l : List Txn} (h : LeavesPin x b l) (y : Port) :
    (y.after l).out.getLsbD x = b := h y.out

theorem pinBit_getLsbD_of_eq {p : Pin} {i : Fin 28} (h : p = some i) : (pinBit p).getLsbD i.val = true :=
  (pinBit_getLsbD p i.val).2 ⟨i, h, rfl⟩

/-- The log of a completed transfer is a write's or a read's, of its kind. -/
theorem port_of_transfer_done {s t : State} {p n : Nat} {imm : Byte} {kind : Kind} (hd : t.doneOk)
    (h : (exec (.wrdata p n) s = .next t ∧ kind = .data) ∨
      (exec (.wrcmd p imm) s = .next t ∧ kind = .cmdreg) ∨
      (exec (.rddata p n) s = .next t ∧ kind = .data) ∨ (exec (.rdreg p) s = .next t ∧ kind = .cmdreg)) :
    (∃ bytes, t.port = s.port.after (writeTrace s.params (s.slotAt p) kind bytes)) ∨
      ∃ vs, t.port = s.port.after (readTrace s.params (s.slotAt p) kind vs) := by
  rcases h with ⟨h, rfl⟩ | ⟨h, rfl⟩ | ⟨h, rfl⟩ | ⟨h, rfl⟩
  · exact .inl ⟨_, port_of_wrdata_done h hd⟩
  · exact .inl ⟨_, port_of_wrcmd_done h hd⟩
  · exact .inr ⟨_, (port_of_rddata_done h hd).2⟩
  · exact .inr ⟨_, (port_of_rdreg_done h hd).2⟩

/-- A completed write of at least one byte logs at least one. -/
theorem port_of_write_done_pos {s t : State} {p n : Nat} {imm : Byte} (hd : t.doneOk) (hn : 1 ≤ n)
    (h : exec (.wrdata p n) s = .next t ∨ exec (.wrcmd p imm) s = .next t) :
    ∃ kind bytes, bytes ≠ [] ∧ t.port = s.port.after (writeTrace s.params (s.slotAt p) kind bytes) := by
  rcases h with h | h
  · exact ⟨_, _, by simpa using (by omega : n ≠ 0), port_of_wrdata_done h hd⟩
  · exact ⟨_, _, by simp, port_of_wrcmd_done h hd⟩

/-- A completed read of at least one unit takes at least one answer. -/
theorem port_of_read_done_pos {s t : State} {p n : Nat} (hd : t.doneOk) (hn : 1 ≤ n)
    (h : exec (.rddata p n) s = .next t ∨ exec (.rdreg p) s = .next t) :
    ∃ kind vs, vs ≠ [] ∧ t.port = s.port.after (readTrace s.params (s.slotAt p) kind vs) := by
  have hne : ∀ m, 1 ≤ m → s.answers (m * (s.slotAt p).bpc.groups) ≠ [] := fun m hm => by
    rw [← List.length_pos_iff, State.answers_length]
    exact Nat.mul_pos hm (Nat.pos_of_ne_zero (Slot.groups_ne_zero _))
  rcases h with h | h
  · exact ⟨_, _, hne n hn, (port_of_rddata_done h hd).2⟩
  · exact ⟨_, _, hne 1 le_rfl, (port_of_rdreg_done h hd).2⟩

/-- In variant B the direction line idles at the strobe's deasserted level (R132). -/
theorem Slot.nLvl_eq_hostLvl {q : Slot} (hv : q.variant = .b) (par : Params) : q.nLvl = q.hostLvl par := by
  rw [Slot.nLvl, Slot.hostLvl, hv]

/-- Settles O46: the last write of each line, in the log of the transfer. -/
theorem writeModeDefaultAfterTransfers : Obligations.WriteModeDefaultAfterTransfers := by
  intro s t p n imm q kind hq hd h
  subst hq
  refine ⟨fun r hr => ?_, fun c hc hdis => ?_, fun e he hn hw hdis => ?_, fun e he hn hr hor => ?_⟩
  · have hx := pinBit_getLsbD_of_eq hr
    rcases port_of_transfer_done hd h with ⟨_, hport⟩ | ⟨_, hport⟩
    · rw [hport]
      exact (writeTrace_leaves_rwrd hx).out_after _
    · rw [hport]
      exact (readTrace_leaves_rwrd hx).out_after _
  · have hx := pinBit_getLsbD_of_eq hc
    have hothers := getLsbD_of_disjoint hdis hx
    simp only [BitVec.getLsbD_or, Bool.or_eq_false_iff] at hothers
    obtain ⟨⟨hdata, henwr⟩, hrwrd⟩ := hothers
    rcases port_of_transfer_done hd h with ⟨_, hport⟩ | ⟨_, hport⟩
    · rw [hport]
      exact (writeTrace_leaves_rscd hx hdata henwr hrwrd).out_after _
    · rw [hport]
      exact (readTrace_leaves_rscd hx henwr hrwrd).out_after _
  · have hx := pinBit_getLsbD_of_eq he
    have hothers := getLsbD_of_disjoint hdis hx
    simp only [BitVec.getLsbD_or, Bool.or_eq_false_iff] at hothers
    obtain ⟨hdata, hrwrd⟩ := hothers
    obtain ⟨_, _, hbytes, hport⟩ := port_of_write_done_pos hd hn hw
    rw [hport]
    exact (writeTrace_leaves_enwr hbytes hx hdata hrwrd).out_after _
  · have hx := pinBit_getLsbD_of_eq he
    obtain ⟨_, _, hvs, hport⟩ := port_of_read_done_pos hd hn hr
    have hrwrd := hor.imp (fun hv => Slot.nLvl_eq_hostLvl hv s.params) fun hdis => getLsbD_of_disjoint hdis hx
    rw [hport]
    exact (readTrace_leaves_rstb hvs hx hrwrd).out_after _

end Sys2Proof.Machine
end

section
/-! SUPPORT. A sampled group bit by bit (43_read.md R221). -/

namespace Sys2Proof.Machine

/-- Bit `j` of a byte that collects a bit at each of the first `k` positions. -/
theorem getLsbD_foldl_bits (f : Nat → Bool) (k j : Nat) (hk : k ≤ 8) :
    ((List.range k).foldl (fun (x : Byte) n => x ||| ((BitVec.ofBool (f n)).setWidth 8 <<< n)) 0).getLsbD j =
      (decide (j < k) && f j) := by
  induction k with
  | zero => simp
  | succ k ih =>
    rw [List.range_succ, List.foldl_append]
    simp only [List.foldl_cons, List.foldl_nil, BitVec.getLsbD_or, ih (by omega), BitVec.getLsbD_shiftLeft,
      BitVec.getLsbD_setWidth, BitVec.getLsbD_ofBool]
    grind

theorem Slot.getLsbD_extract (q : Slot) (v : Word) (u : Byte) (j : Nat) : (q.extract v u).getLsbD j =
    (decide (j < q.bpc.bits) && bitval (q.groupPin j) v (u.getLsbD j)) :=
  getLsbD_foldl_bits (fun k => bitval (q.groupPin k) v (u.getLsbD k)) _ j (by cases q.bpc <;> decide)

/-- Settles O34: bit `j` is `bitval` of its pin below `bpc`, and 0 from there on. -/
theorem extractTakesEachBitFromItsPin : Obligations.ExtractTakesEachBitFromItsPin := by
  intro q v u j
  refine ⟨fun hj => ⟨fun i hi => ?_, fun hnone => ?_⟩, fun hj => ?_⟩
  · rw [q.getLsbD_extract, Slot.groupPin, hi, decide_eq_true hj]
    rfl
  · rw [q.getLsbD_extract, Slot.groupPin, hnone, decide_eq_true hj]
    rfl
  · rw [q.getLsbD_extract, decide_eq_false (Nat.not_lt.2 hj), Bool.false_and]

end Sys2Proof.Machine
end

section
/-! SUPPORT. The read program from end to end, its log apart (43_read.md R220-R224, R227-R229): the bytes it
assembles and where it puts them, what it requests of the timeline, and how long it is. -/

namespace Sys2Proof.Machine

open Sys2Proof.Config (Params)

/-! ## How long a read is -/

theorem countOps_readGroupItems (par : Params) (q : Slot) (k : Nat) :
    countOps (readGroupItems par q k) = 10 := by
  simp [readGroupItems, applyItems, countOps_append, countOps_applyOps, countOps]

theorem countWaits_readGroupItems (par : Params) (q : Slot) (k : Nat) :
    countWaits (readGroupItems par q k) = 2 := by
  simp [readGroupItems, applyItems, countWaits_append, countWaits_applyOps, countWaits]

theorem countOps_readUnit (par : Params) (q : Slot) (snk : Sink) (i : Nat) :
    countOps (readUnit par q snk i) = q.bpc.groups * 10 := by
  have hgroups := countOps_flatMap (List.range q.bpc.groups) _ 10 (countOps_readGroupItems par q)
  have hsink : countOps (sinkItems snk i) = 0 := by cases snk <;> rfl
  rw [List.length_range] at hgroups
  rw [readUnit, countOps_append, hsink, countOps, hgroups, Nat.add_zero]

theorem countWaits_readUnit (par : Params) (q : Slot) (snk : Sink) (i : Nat) :
    countWaits (readUnit par q snk i) = q.bpc.groups * 2 := by
  have hgroups := countWaits_flatMap (List.range q.bpc.groups) _ 2 (countWaits_readGroupItems par q)
  have hsink : countWaits (sinkItems snk i) = 0 := by cases snk <;> rfl
  rw [List.length_range] at hgroups
  rw [readUnit, countWaits_append, hsink, countWaits, hgroups, Nat.add_zero]

/-- DRIVE of the direction line before the first WAIT is in variant A only. -/
theorem readDirection_eq (par : Params) (q : Slot) :
    readDirection par q = driveItems q.rwrd (devLvl par) ∨ readDirection par q = [] := by
  unfold readDirection
  cases q.variant
  · exact .inl rfl
  · exact .inr rfl

theorem countOps_readLines_le (par : Params) (q : Slot) (kind : Kind) (n : Nat) (snk : Sink) :
    countOps (readLines par q kind n snk) + 1 ≤ q.readOps n := by
  have hdirection : countOps (readDirection par q) ≤ 1 := by
    rcases readDirection_eq par q with h | h <;> rw [h]
    · exact countOps_driveItems_le _ _
    · exact Nat.zero_le 1
  have hrelease := countOps_driveItems_le q.rwrd (q.hostLvl par)
  have hunits := countOps_flatMap (List.range n) _ _ (countOps_readUnit par q snk)
  have hlast : countOps (readLast snk) = 0 := by cases snk <;> rfl
  have hops : n * (q.bpc.groups * 10) = 10 * n * q.bpc.groups := by ring
  rw [List.length_range, hops] at hunits
  simp only [readLines, readFront, applyItems, countOps_append, countOps, countOps_applyOps, hunits, hlast,
    Slot.readOps]
  omega

theorem countWaits_readLines (par : Params) (q : Slot) (kind : Kind) (n : Nat) (snk : Sink) :
    countWaits (readLines par q kind n snk) = q.waits n := by
  have hdirection : countWaits (readDirection par q) = 0 := by
    rcases readDirection_eq par q with h | h <;> rw [h]
    · exact countWaits_driveItems _ _
    · rfl
  have hunits := countWaits_flatMap (List.range n) _ _ (countWaits_readUnit par q snk)
  have hlast : countWaits (readLast snk) = 0 := by cases snk <;> rfl
  rw [List.length_range] at hunits
  simp only [readLines, readFront, applyItems, countWaits_append, countWaits, countWaits_applyOps,
    countWaits_driveItems, hdirection, hunits, hlast, Slot.waits]
  ring

/-! ## What a read requests of the timeline -/

theorem driveItems_requests (p : Pin) (l : Bool) : Requests (driveItems p l) [] := by
  cases p with
  | none => exact .nil
  | some i => cases l <;> exact .nil

/-- R224: of the three increments of a group, `t_clock` is overwritten before a WAIT commits it. -/
theorem readGroupItems_requests (par : Params) (q : Slot) (k : Nat) :
    Requests (readGroupItems par q k) [q.tRead, q.dR k] := by
  intro c d
  unfold readGroupItems
  cases q.assertOrder <;> cases q.deassertOrder <;>
    simp [pace, applyItems, applyOps, Item.pace, committed, Nat.add_assoc]

theorem readLines_requests (par : Params) (q : Slot) (kind : Kind) (n : Nat) (snk : Sink) :
    Requests (readLines par q kind n snk) (readDelays q n) := by
  have hdirection : Requests (readDirection par q) [] := by
    rcases readDirection_eq par q with h | h <;> rw [h]
    · exact driveItems_requests _ _
    · exact .nil
  have hsetup : Requests (.wait :: applyItems (q.readSetup par kind) q.assertOrder ++ [.op (.adv q.tSetup)])
      [q.tSetup] := by
    intro c d
    cases q.assertOrder <;> simp [pace, applyItems, applyOps, Item.pace, committed]
  have hunit : ∀ i, Requests (readUnit par q snk i)
      ((List.range q.bpc.groups).flatMap fun k => [q.tRead, q.dR k]) := fun i => by
    have hsink : Requests (sinkItems snk i) [] := by cases snk <;> exact .nil
    have hstart : Requests [.loc (.startUnit i)] [] := .nil
    have h := (hstart.append (.flatMap (List.range q.bpc.groups) (readGroupItems_requests par q))).append hsink
    rwa [List.append_nil] at h
  have hlast : Requests (readLast snk) [] := by cases snk <;> exact .nil
  have h := (((hdirection.append hsetup).append (.flatMap (List.range n) hunit)).append
    (driveItems_requests q.rwrd (q.hostLvl par))).append hlast
  simpa [readLines, readFront, readDelays] using h

/-! ## The supplies of a read -/

/-- The supplies after `k` groups have been sampled: a bank answer and a free byte for each (R163, R221). -/
def Env.sampled (e : Env) (k : Nat) : Env :=
  { e with bank := Draws.rest^[k] e.bank, undef := Draws.rest^[k] e.undef }

theorem Env.sampled_sampled (e : Env) (j k : Nat) : (e.sampled j).sampled k = e.sampled (j + k) := by
  simp only [Env.sampled, ← Function.iterate_add_apply, Nat.add_comm]

/-- The byte that the next samples of a unit make (R222). -/
def Slot.nextByte (q : Slot) (e : Env) : Byte :=
  q.assemble (e.bank.take Config.bank q.bpc.groups) (e.undef.take Config.undefBits q.bpc.groups)

/-- The byte that unit `i` of a read makes (R227). -/
def Slot.byteOf (q : Slot) (e : Env) (i : Nat) : Byte := q.nextByte (e.sampled (i * q.bpc.groups))

/-- What is left of a supply of `n` units from unit `i` on begins with the values of unit `i`. -/
theorem Draws.drop_take_unit {α : Type} (free : Nat → α) (d : Draws α) {i n : Nat} (g : Nat) (h : i < n) :
    ∃ r, (d.take free (n * g)).drop (i * g) = (Draws.rest^[i * g] d).take free g ++ r := by
  obtain ⟨m, rfl⟩ := Nat.exists_eq_add_of_lt h
  have hsplit : (i + m + 1) * g = i * g + (g + m * g) := by ring
  rw [hsplit, Draws.take_add, List.drop_left' (Draws.take_length ..), Draws.take_add]
  exact ⟨_, rfl⟩

/-- A unit's byte takes one answer for each of its groups. -/
theorem Slot.assemble_append (q : Slot) {vs : List Word} {us : List Byte} (ws : List Word) (xs : List Byte)
    (hv : vs.length = q.bpc.groups) (hu : us.length = q.bpc.groups) :
    q.assemble (vs ++ ws) (us ++ xs) = q.assemble vs us := by
  unfold Slot.assemble
  cases hw : q.bpc with
  | w8 =>
    rw [hw] at hv hu
    obtain ⟨v, rfl⟩ := List.length_eq_one_iff.1 hv
    obtain ⟨u, rfl⟩ := List.length_eq_one_iff.1 hu
    rfl
  | w4 =>
    rw [hw] at hv hu
    obtain ⟨v, w, rfl⟩ := List.length_eq_two.1 hv
    obtain ⟨u, x, rfl⟩ := List.length_eq_two.1 hu
    rfl

theorem Slot.unitByte_eq_byteOf (q : Slot) (s : State) {i n : Nat} (h : i < n) :
    q.unitByte (s.answers (n * q.bpc.groups)) (s.undefs (n * q.bpc.groups)) i = q.byteOf s.env i := by
  obtain ⟨ws, hv⟩ := Draws.drop_take_unit Config.bank s.env.bank q.bpc.groups h
  obtain ⟨xs, hu⟩ := Draws.drop_take_unit Config.undefBits s.env.undef q.bpc.groups h
  rw [Slot.unitByte, State.answers, State.undefs, hv, hu,
    q.assemble_append _ _ (Draws.take_length ..) (Draws.take_length ..)]
  rfl

/-! ## Where a read puts its bytes -/

/-- BUF's list after unit `i` has made the byte `v` (R228, R229). -/
def Sink.put (m : List Host.Cell) (i : Nat) (v : Byte) : Sink → List Host.Cell
  | .buffer => Memory.write m i v
  | .rdval => m

/-- BUF's list after `n` units, unit `i` having made the byte `b i`. -/
def Sink.putAll (snk : Sink) (b : Nat → Byte) (m : List Host.Cell) : Nat → List Host.Cell
  | 0 => m
  | n + 1 => snk.put (snk.putAll b m n) n (b n)

theorem Memory.read_putAll (b : Nat → Byte) (m : List Host.Cell) (n i : Nat) :
    Memory.read (Sink.buffer.putAll b m n) i = if i < n then some (b i) else Memory.read m i := by
  induction n with
  | zero => rfl
  | succ n ih =>
    rw [Sink.putAll, Sink.put]
    by_cases hi : i = n
    · subst hi
      rw [Memory.read_write_same, if_pos (Nat.lt_succ_self i)]
    · rw [Memory.read_write_other _ _ _ _ hi, ih]
      exact if_congr (by omega) rfl rfl

/-- RDVAL after the line before `finish`, the accumulator being `acc` (R229). -/
def Sink.load (old acc : Byte) : Sink → Byte
  | .buffer => old
  | .rdval => acc

/-- The accumulator after `n` units, `acc` before them (R220, R222). -/
def Slot.accAfter (q : Slot) (e : Env) (acc : Byte) : Nat → Byte
  | 0 => acc
  | n + 1 => q.byteOf e n

/-! ## What a read computes -/

/-- The state with `k` groups sampled, an increment requested, another BUF, port and control state. -/
def State.sampled (s : State) (k : Nat) (d : Word) (m : List Host.Cell) (x : Port) (c : Control) : State :=
  { s with tl := ⟨s.tl.sched, d⟩, ctl := c, buf := m, port := x, env := s.env.sampled k }

theorem State.sampled_sampled (s : State) (j k : Nat) (d e : Word) (m l : List Host.Cell) (x y : Port)
    (c a : Control) : (s.sampled j d m x c).sampled k e l y a = s.sampled (j + k) e l y a := by
  simp only [State.sampled, Env.sampled_sampled]

theorem effects_applyItems_sampled (m : Masks) (o : Order) (s : State) :
    ∃ x c, effects (applyItems m o) s = s.sampled 0 s.tl.timing s.buf x c ∧ c.acc = s.ctl.acc :=
  ⟨_, _, effects_applyItems m o s, rfl⟩

/-- The phase between the two APPLYs of a group: the sample is shifted into the accumulator (R220, R222). -/
theorem effects_sample (q : Slot) (s : State) :
    ∃ x c, effects [.op (.adv q.tRead), .wait, .op .readBank, .loc (.accumulate q), .op (.adv q.tClock)] s =
      s.sampled 1 q.tClock s.buf x c ∧
      c.acc = q.accumulate s.ctl.acc
        (q.extract (s.env.bank.value Config.bank) (s.env.undef.value Config.undefBits)) :=
  ⟨s.portRead.port, (s.portRead.accumulate q).ctl, rfl, rfl⟩

/-- One group of a read: only its sample changes the accumulator. -/
theorem effects_readGroupItems (par : Params) (q : Slot) (k : Nat) (s : State) :
    ∃ x c, effects (readGroupItems par q k) s = s.sampled 1 (q.dR k) s.buf x c ∧
      c.acc = q.accumulate s.ctl.acc
        (q.extract (s.env.bank.value Config.bank) (s.env.undef.value Config.undefBits)) := by
  obtain ⟨x, c, hassert, hc⟩ :=
    effects_applyItems_sampled (lvlMask (q.rstb par) q.aLvl) q.assertOrder (s.readGroup k)
  obtain ⟨y, a, hsample, ha⟩ := effects_sample q ((s.readGroup k).sampled 0 s.tl.timing s.buf x c)
  obtain ⟨z, b, hdeassert, hb⟩ := effects_applyItems_sampled (lvlMask (q.rstb par) q.nLvl) q.deassertOrder
    ((s.readGroup k).sampled 1 q.tClock s.buf y a)
  rw [State.sampled_sampled] at hsample
  refine ⟨z, b, ?_, ?_⟩
  · have hstart : effects [.loc (.readGroup k), .wait] s = s.readGroup k := rfl
    rw [readGroupItems, effects_append, effects_append, effects_append, effects_append, hstart, hassert]
    show effects _ (effects _ (effects _ ((s.readGroup k).sampled 0 s.tl.timing s.buf x c))) = _
    rw [hsample]
    show effects _ (effects _ ((s.readGroup k).sampled 1 q.tClock s.buf y a)) = _
    rw [hdeassert, State.sampled_sampled]
    rfl
  · have hacc : c.acc = s.ctl.acc := hc
    have hsampled : a.acc = q.accumulate c.acc
        (q.extract (s.env.bank.value Config.bank) (s.env.undef.value Config.undefBits)) := ha
    rw [hb, ← hacc, ← hsampled]
    rfl

/-- The groups of a unit, from a clear accumulator on: the first group ends up on top (R222). -/
theorem effects_readGroups (par : Params) (q : Slot) (s : State) (hacc : s.ctl.acc = 0) :
    ∃ x c, effects ((List.range q.bpc.groups).flatMap (readGroupItems par q)) s =
      s.sampled q.bpc.groups (q.dR (q.bpc.groups - 1)) s.buf x c ∧ c.acc = q.nextByte s.env := by
  obtain ⟨x, c, hfirst, hc⟩ := effects_readGroupItems par q 0 s
  unfold Slot.nextByte Slot.assemble
  rw [hacc] at hc
  unfold Slot.accumulate at hc
  cases hw : q.bpc with
  | w8 =>
    refine ⟨x, c, ?_, ?_⟩
    · simpa only [BusWidth.groups, List.range_one, List.flatMap_singleton] using hfirst
    · simpa [hw, BusWidth.bits, BusWidth.groups, Draws.take] using hc
  | w4 =>
    obtain ⟨y, a, hsecond, ha⟩ := effects_readGroupItems par q 1 (s.sampled 1 (q.dR 0) s.buf x c)
    have hrange : List.range 2 = [0, 1] := rfl
    have hctl : (s.sampled 1 (q.dR 0) s.buf x c).ctl.acc = c.acc := rfl
    refine ⟨y, a, ?_, ?_⟩
    · simp only [BusWidth.groups, hrange, List.flatMap_cons, List.flatMap_nil, List.append_nil,
        effects_append, hfirst, hsecond, State.sampled_sampled]
      rfl
    · rw [ha, hctl, hc]
      simp [Slot.accumulate, hw, BusWidth.bits, BusWidth.groups, Draws.take, State.sampled, Env.sampled]

/-- One unit of a read: its byte is in the accumulator, and in BUF if that is its sink (R220, R228). -/
theorem effects_readUnit (par : Params) (q : Slot) (snk : Sink) (i : Nat) (s : State) :
    ∃ x c, effects (readUnit par q snk i) s =
      s.sampled q.bpc.groups (q.dR (q.bpc.groups - 1)) (snk.put s.buf i (q.nextByte s.env)) x c ∧
      c.acc = q.nextByte s.env := by
  obtain ⟨x, c, hgroups, hc⟩ := effects_readGroups par q (s.startUnit i) rfl
  have hacc : c.acc = q.nextByte s.env := hc
  refine ⟨x, c, ?_, hacc⟩
  rw [readUnit, List.cons_append, effects_cons, effects_append]
  show effects (sinkItems snk i) (effects _ (s.startUnit i)) = _
  rw [hgroups, ← hacc]
  cases snk <;> rfl

theorem effects_readUnits (par : Params) (q : Slot) (snk : Sink) (n : Nat) (s : State) :
    ∃ x c, effects ((List.range n).flatMap (readUnit par q snk)) s =
      s.sampled (n * q.bpc.groups) (if n = 0 then s.tl.timing else q.dR (q.bpc.groups - 1))
        (snk.putAll (q.byteOf s.env) s.buf n) x c ∧
      c.acc = q.accAfter s.env s.ctl.acc n := by
  induction n with
  | zero => exact ⟨s.port, s.ctl, by rw [Nat.zero_mul]; rfl, rfl⟩
  | succ n ih =>
    obtain ⟨x, c, hunits, _⟩ := ih
    obtain ⟨y, a, hunit, ha⟩ := effects_readUnit par q snk n
      (effects ((List.range n).flatMap (readUnit par q snk)) s)
    rw [hunits] at hunit ha
    refine ⟨y, a, ?_, ha⟩
    rw [List.range_succ, List.flatMap_append, effects_append, List.flatMap_singleton, hunits, hunit,
      State.sampled_sampled, if_neg (Nat.succ_ne_zero n), Nat.succ_mul]
    rfl

theorem effects_driveItems (p : Pin) (l : Bool) (s : State) :
    ∃ x, effects (driveItems p l) s = s.sampled 0 s.tl.timing s.buf x s.ctl := by
  cases p with
  | none => exact ⟨_, rfl⟩
  | some i => cases l <;> exact ⟨_, rfl⟩

theorem effects_readDirection (par : Params) (q : Slot) (s : State) :
    ∃ x, effects (readDirection par q) s = s.sampled 0 s.tl.timing s.buf x s.ctl := by
  rcases readDirection_eq par q with h | h <;> rw [h]
  · exact effects_driveItems _ _ s
  · exact ⟨_, rfl⟩

/-- Step 1 of `READ` (R220). -/
theorem effects_readOpening (par : Params) (q : Slot) (kind : Kind) (s : State) :
    ∃ x c, effects (readDirection par q ++ .wait :: applyItems (q.readSetup par kind) q.assertOrder ++
        [.op (.adv q.tSetup)]) s = s.sampled 0 q.tSetup s.buf x c ∧ c.acc = s.ctl.acc := by
  obtain ⟨x, hdirection⟩ := effects_readDirection par q s
  simp only [effects_append, effects_cons, effects_applyItems, hdirection]
  exact ⟨_, _, rfl, rfl⟩

/-- The whole read, up to its last lines. -/
theorem effects_readFront (par : Params) (q : Slot) (kind : Kind) (n : Nat) (snk : Sink) (s : State) :
    ∃ x c, effects (readFront par q kind n snk) s =
      s.sampled (n * q.bpc.groups) (if n = 0 then q.tSetup else q.dR (q.bpc.groups - 1))
        (snk.putAll (q.byteOf s.env) s.buf n) x c ∧
      c.acc = q.accAfter s.env s.ctl.acc n := by
  obtain ⟨x, c, hopening, hc⟩ := effects_readOpening par q kind s
  obtain ⟨y, a, hunits, ha⟩ := effects_readUnits par q snk n (s.sampled 0 q.tSetup s.buf x c)
  obtain ⟨z, hrelease⟩ := effects_driveItems q.rwrd (q.hostLvl par)
    (effects ((List.range n).flatMap (readUnit par q snk)) (s.sampled 0 q.tSetup s.buf x c))
  refine ⟨z, a, ?_, ?_⟩
  · rw [readFront, effects_append, effects_append, hopening, hrelease, hunits, State.sampled_sampled,
      State.sampled_sampled, Nat.zero_add]
    rfl
  · rw [ha, ← hc]
    rfl

/-! ## RDDATA and RDREG -/

/-- What a read that ran from end to end leaves: time and the supplies of time are what they became. -/
def State.afterRead (s : State) (q : Slot) (kind : Kind) (n : Nat) (snk : Sink) (u : State) : State :=
  { s with
    regs := { s.regs with
      busy := false
      result := .ok
      rdval := snk.load s.regs.rdval (q.accAfter s.env 0 n) }
    tl := ⟨u.tl.sched, if n = 0 then q.tSetup else q.dR (q.bpc.groups - 1)⟩
    mono := u.mono
    ctl := Control.idle
    buf := snk.putAll (q.byteOf s.env) s.buf n
    port := s.port.after (readTrace s.params q kind (s.answers (n * q.bpc.groups)))
    env := { s.env.sampled (n * q.bpc.groups) with elapsed := u.env.elapsed, spins := u.env.spins } }

section
variable {s u : State} {q : Slot} {kind : Kind} {n : Nat} {snk : Sink}

/-- A read's lines, run from end to end and finished. -/
theorem finish_readLines (h : runAll (readLines s.params q kind n snk) s.begin = .next u) :
    u.whileBusy (State.finish · .ok) = s.afterRead q kind n snk u := by
  obtain ⟨x, c, hfront, hacc⟩ := effects_readFront s.params q kind n snk s.begin
  obtain ⟨hport, _, hbusy⟩ := readLines_logs s.params q kind n snk s.begin
  have hu := runAll_effects hbusy h
  rw [readLines, effects_append, hfront] at hport hu
  have hx : x = s.port.after (readTrace s.params q kind (s.answers (n * q.bpc.groups))) := by
    cases snk <;> exact hport
  have hrdval : c.acc = q.accAfter s.env 0 n := hacc
  rw [State.whileBusy_busy u _ (by rw [hu]; cases snk <;> rfl), hu, State.afterRead, ← hx, ← hrdval]
  cases snk <;> rfl

theorem readLines_sched_le (h : runAll (readLines s.params q kind n snk) s.begin = .next u) :
    s.tl.sched.toNat + s.tl.timing.toNat + committed (readDelays q n) ≤ u.tl.sched.toNat := by
  obtain ⟨_, _, hbusy⟩ := readLines_logs s.params q kind n snk s.begin
  have hpace := runAll_pace hbusy h (c := s.tl.sched.toNat) le_rfl
  rw [readLines_requests, readDelays, committed_cons_cons, ← Nat.add_assoc] at hpace
  exact hpace

end

/-- A read left undisturbed, with room on the timebase, runs from end to end. -/
theorem exec_read_undisturbed {i : Instr} {s : State} {q : Slot} {kind : Kind} {n : Nat} {snk : Sink}
    (hprog : programOf i s.begin = readLines s.params q kind n snk ++ finishOnly .ok)
    (hquiet : s.quietFor (q.readOps n) (q.waits n) = true) (hroom : s.timeRoom (q.waits n) = true) :
    ∃ u, exec i s = .next (s.afterRead q kind n snk u) ∧
      s.tl.sched.toNat + s.tl.timing.toNat + committed (readDelays q n) ≤ u.tl.sched.toNat := by
  have hbegin : s.begin.timeRoom (q.waits n) = true := State.timeRoom_of_spin_none hroom rfl rfl rfl rfl rfl
  rw [← countWaits_readLines s.params q kind n snk] at hbegin hquiet
  obtain ⟨u, hu⟩ := runAll_next_of_timeRoom (readLines s.params q kind n snk) s.begin rfl hbegin
  have hops := countOps_readLines_le s.params q kind n snk
  refine ⟨u, ?_, readLines_sched_le hu⟩
  rw [exec_of_quietFor hprog (State.quiet_of_le (Nat.add_le_add_right hops _) hquiet), hu, thenRun_next,
    finish_readLines hu]

/-- Settles O40: RDREG passes its checks, and RDVAL takes the byte of its one unit. -/
theorem rdregReadsOneByteIntoRdval : Obligations.RdregReadsOneByteIntoRdval := by
  intro s p q hp hq hv hrw hquiet hroom
  subst hq
  have hprog : programOf (.rdreg p) s.begin =
      readLines s.params (s.slotAt p) .cmdreg 1 .rdval ++ finishOnly .ok :=
    (withSlot_of_slot (s := s.begin) hp _).trans
      ((if_pos hv).trans ((if_neg hrw).trans (readItems_eq_readLines ..)))
  obtain ⟨u, hexec, hsched⟩ := exec_read_undisturbed hprog hquiet hroom
  have hbyte := (s.slotAt p).unitByte_eq_byteOf s Nat.zero_lt_one
  rw [Nat.one_mul] at hbyte
  rw [State.afterRead, Nat.one_mul] at hexec
  exact ⟨_, hexec, hbyte.symm, rfl, hsched, rfl⟩

/-- Settles O41: RDDATA passes its checks, and each unit's byte is put into BUF. -/
theorem rddataReadsIntoTheBuffer : Obligations.RddataReadsIntoTheBuffer := by
  intro s p n q hp hq hv hrw hn hquiet hroom
  subst hq
  have hprog : programOf (.rddata p n) s.begin =
      readLines s.params (s.slotAt p) .data n .buffer ++ finishOnly .ok :=
    (withSlot_of_slot (s := s.begin) hp _).trans
      ((if_pos hv).trans ((if_neg hrw).trans ((if_neg (Nat.not_lt.2 hn)).trans (readItems_eq_readLines ..))))
  obtain ⟨u, hexec, hsched⟩ := exec_read_undisturbed hprog hquiet hroom
  refine ⟨_, hexec, fun i hi => ?_, fun i hi => ?_, rfl, hsched, rfl⟩
  · rw [Slot.unitByte_eq_byteOf _ s hi, State.bufRead, State.afterRead, Memory.read_putAll, if_pos hi,
      Option.getD_some]
  · rw [State.bufRead, State.afterRead, Memory.read_putAll, if_neg (Nat.not_lt.2 hi)]
    rfl

end Sys2Proof.Machine
end

section
/-! SUPPORT. How a command fails (60_exceptions.md R250, R252, R255): which check ends it, and that it then writes
STATUS alone. -/

namespace Sys2Proof.Machine

/-! ## The order of the checks -/

section
variable {s : State} {p : Nat} (hp : p < s.params.numProfiles) (hv : (s.slotAt p).valid = true)
include hp hv

/-- Reads check the direction line next after the slot, before the count (R252). -/
theorem programOf_of_no_rwrd (hrw : (s.slotAt p).rwrd = none) (n : Nat) (i : Instr)
    (hi : i = .rddata p n ∨ i = .rdreg p) : programOf i s = finishOnly .unsupportedOperation := by
  rcases hi with rfl | rfl <;> exact (withSlot_of_slot hp _).trans ((if_pos hv).trans (if_pos hrw))

theorem programOf_wrdata_of_count {n : Nat} (hn : s.params.bufSize < n) :
    programOf (.wrdata p n) s = finishOnly .badCount :=
  (withSlot_of_slot hp _).trans ((if_pos hv).trans (if_pos hn))

/-- RDDATA checks the count last (R252). -/
theorem programOf_rddata_of_count {n : Nat} (hrw : (s.slotAt p).rwrd ≠ none) (hn : s.params.bufSize < n) :
    programOf (.rddata p n) s = finishOnly .badCount :=
  (withSlot_of_slot hp _).trans ((if_pos hv).trans ((if_neg hrw).trans (if_pos hn)))

end

/-- Settles O23: under the premises of each check the program is the `finish` of that check alone. -/
theorem checksAreMadeInOrder : Obligations.ChecksAreMadeInOrder := by
  intro s p n imm hp hq
  refine ⟨fun hv => exec_of_not_valid hp hv hq n imm, fun hv hrw i hi => ?_, fun hv hn => ⟨?_, fun hrw => ?_⟩⟩
  · exact exec_of_finishOnly i s _ hq (programOf_of_no_rwrd (s := s.begin) hp hv hrw n i hi)
  · exact exec_of_finishOnly _ s _ hq (programOf_wrdata_of_count (s := s.begin) hp hv hn)
  · exact exec_of_finishOnly _ s _ hq (programOf_rddata_of_count (s := s.begin) hp hv hrw hn)

/-! ## How a finished command ended -/

section
variable {i : Instr} {s t : State} {xs : List Item}

/-- A command that fails a check does nothing but finish with that check's code (R252). -/
theorem FailsCheck.exec_finished (hfail : FailsCheck (programOf i s.begin)) (h : exec i s = .next t)
    (hb : t.regs.busy = false) : ∃ r, t = s.finish r := by
  obtain ⟨r, _, hprog⟩ := hfail
  obtain ⟨u, hu, rfl⟩ := Machine.exec_finished (xs := []) hprog h hb
  cases hu
  exact ⟨r, State.whileBusy_busy _ _ rfl⟩

/-- Lines that do not end the command leave it to the `finish` after them. -/
theorem exec_finished_ok (hprog : programOf i s.begin = xs ++ finishOnly .ok)
    (hbusy : (effects xs s.begin).regs.busy = true) (h : exec i s = .next t) (hb : t.regs.busy = false) :
    t.regs.result = .ok := by
  obtain ⟨u, hu, rfl⟩ := exec_finished hprog h hb
  have htime := runAll_effects hbusy hu
  rw [State.whileBusy_busy u _ (by rw [htime]; exact hbusy)]
  rfl

end

section
variable {s t : State} {p n : Nat} {imm : Byte}

theorem programOf_release (s : State) (p : Nat) : FailsCheck (programOf (.release p) s) ∨
    programOf (.release p) s = [.loc (.invalidate p)] ++ finishOnly .ok := by
  simp only [programOf, releaseProgram, withSlot]
  split
  · exact .inl ⟨_, by decide, rfl⟩
  · split
    · exact .inr rfl
    · exact .inl ⟨_, by decide, rfl⟩

theorem createLines_effects_busy (par : Config.Params) (q : Slot) (s : State) :
    (effects (createLines par q) s).regs.busy = s.regs.busy := by
  have hdrive : ∀ p l u, (effects (driveItems p l) u).regs.busy = u.regs.busy := fun p l u => by
    obtain ⟨_, _, hbusy⟩ := driveItems_logs p l u
    exact hbusy
  have hmode : ∀ m d u, (effects [.op (.mode m d)] u).regs.busy = u.regs.busy := fun _ _ _ => rfl
  simp only [createLines, effects_append, hdrive, hmode]

/-- A CREATE that passes its check finishes with OK, or without `gpio_avail` as it begins (R133). -/
theorem exec_create_finished (hprog : programOf (.create p) s.begin =
      (.loc .needGpio :: .loc (.latch p s.regs.staging.profile) ::
        createLines s.params s.regs.staging.profile) ++ finishOnly .ok)
    (h : exec (.create p) s = .next t) (hb : t.regs.busy = false) :
    t.regs.result = .ok ∨ t =
      ({ s with env := { s.env with avail := s.env.avail.rest } } : State).finish .deviceUnavailable := by
  cases havail : s.env.avail.value Config.gpioAvail with
  | false =>
    obtain ⟨u, hu, rfl⟩ := exec_finished hprog h hb
    rw [runAll_loc _ _ _ rfl, localEffect, State.needGpio_of_unavail (s := s.begin) havail,
      runAll_idle _ _ rfl] at hu
    cases hu
    rw [State.whileBusy_idle _ _ rfl]
    exact .inr rfl
  | true =>
    have hgoes : s.begin.needGpio.regs.busy = true := by
      rw [State.needGpio_of_avail (s := s.begin) havail]
      rfl
    refine .inl (exec_finished_ok hprog ?_ h hb)
    rw [effects_cons, effects_cons, createLines_effects_busy]
    exact hgoes

theorem write_fails_or_ok {i : Instr} {q : Slot} {kind : Kind} {src : ByteSource}
    (hprog : FailsCheck (programOf i s.begin) ∨
      programOf i s.begin = writeFront s.params q kind n src ++ finishOnly .ok)
    (h : exec i s = .next t) (hb : t.regs.busy = false) :
    FailsCheck (programOf i s.begin) ∨ t.regs.result = .ok :=
  hprog.imp_right fun hlines => by
    obtain ⟨c, hc⟩ := effects_writeFront s.params q kind n src s.begin
    exact exec_finished_ok hlines (by rw [hc]; rfl) h hb

theorem read_fails_or_ok {i : Instr} {q : Slot} {kind : Kind} {snk : Sink}
    (hprog : FailsCheck (programOf i s.begin) ∨
      (q.rwrd ≠ none ∧ programOf i s.begin = readLines s.params q kind n snk ++ finishOnly .ok))
    (h : exec i s = .next t) (hb : t.regs.busy = false) :
    FailsCheck (programOf i s.begin) ∨ t.regs.result = .ok :=
  hprog.imp_right fun ⟨_, hlines⟩ => by
    obtain ⟨_, _, hbusy⟩ := readLines_logs s.params q kind n snk s.begin
    exact exec_finished_ok hlines hbusy h hb

/-- Everything a finished command can have ended in: a check, CREATE's sample of `gpio_avail`, or OK. -/
theorem exec_finished_cases {i : Instr} (h : exec i s = .next t) (hb : t.regs.busy = false) :
    (∃ r d, t = ({ s with env := { s.env with avail := d } } : State).finish r) ∨ t.regs.result = .ok := by
  have hcheck : FailsCheck (programOf i s.begin) ∨ t.regs.result = .ok →
      (∃ r d, t = ({ s with env := { s.env with avail := d } } : State).finish r) ∨ t.regs.result = .ok :=
    fun hor => hor.imp_left fun hfail => by
      obtain ⟨r, hr⟩ := hfail.exec_finished h hb
      exact ⟨r, s.env.avail, hr⟩
  cases i with
  | nop => exact .inr (exec_finished_ok (xs := []) rfl rfl h hb)
  | create p =>
    rcases programOf_create s p with hfail | hlines
    · exact hcheck (.inl hfail)
    · exact (exec_create_finished hlines h hb).symm.imp_left fun hun => ⟨_, _, hun⟩
  | release p =>
    exact hcheck ((programOf_release s.begin p).imp_right fun hlines => exec_finished_ok hlines rfl h hb)
  | wrdata p n => exact hcheck (write_fails_or_ok (programOf_wrdata s.begin p n) h hb)
  | wrcmd p imm => exact hcheck (write_fails_or_ok (programOf_wrcmd s.begin p imm) h hb)
  | rddata p n => exact hcheck (read_fails_or_ok (programOf_rddata s.begin p n) h hb)
  | rdreg p => exact hcheck (read_fails_or_ok (programOf_rdreg s.begin p) h hb)

end

/-- Settles O24: a command that does not end with OK ended in a check or in CREATE's sample, before any line
that writes another state. -/
theorem failedCommandsWriteOnlyStatus : Obligations.FailedCommandsWriteOnlyStatus := by
  intro i s t h hb hne
  obtain ⟨r, d, rfl⟩ := (exec_finished_cases h hb).resolve_right hne
  rfl

end Sys2Proof.Machine
end

section
/-! SUPPORT. Where a command stops (20_memory.md R76, 41_timeline.md R177, 60_exceptions.md R257): at no fault, at
no refusal but a time out of range, and nowhere a host move makes it stop short of a next state. -/

namespace Sys2Proof.Machine

/-! ## The only refusal -/

/-- A next state, or the refusal of a time beyond 2^64 - 1 (R177). -/
def StopsForTimeOnly (o : StepOutcome) : Prop := (∃ t, o = .next t) ∨ o = .refused .timeRange

theorem stopsForTimeOnly_next (s : State) : StopsForTimeOnly (.next s) := .inl ⟨s, rfl⟩

namespace StopsForTimeOnly

variable {o : StepOutcome}

theorem not_fault (h : StopsForTimeOnly o) (f : Fault) : o ≠ .fault f := by
  rcases h with ⟨t, rfl⟩ | rfl <;> exact fun hf => by cases hf

theorem eq_timeRange (h : StopsForTimeOnly o) (r : Refusal) (hr : o = .refused r) : r = .timeRange := by
  rcases h with ⟨t, rfl⟩ | rfl <;> cases hr
  rfl

theorem thenRun {f : State → StepOutcome} (h : StopsForTimeOnly o) (hf : ∀ t, StopsForTimeOnly (f t)) :
    StopsForTimeOnly (Machine.thenRun o f) := by
  rcases h with ⟨t, rfl⟩ | rfl
  · exact hf t
  · exact .inr rfl

theorem ite {c : Prop} [Decidable c] {p : StepOutcome} (h : StopsForTimeOnly o) (hp : StopsForTimeOnly p) :
    StopsForTimeOnly (if c then o else p) := by
  split
  · exact h
  · exact hp

end StopsForTimeOnly

section
variable (stop : Option Nat)

theorem State.waitStart_stopsForTimeOnly (s : State) : StopsForTimeOnly s.waitStart := by
  rw [State.waitStart_eq s _ rfl]
  exact (stopsForTimeOnly_next _).ite (.inr rfl)

theorem State.spinRead_stopsForTimeOnly (s : State) : StopsForTimeOnly s.spinRead := by
  unfold State.spinRead
  split
  · exact stopsForTimeOnly_next _
  · split
    · exact .inr rfl
    · exact (stopsForTimeOnly_next _).ite (stopsForTimeOnly_next _)

theorem spinTo_stopsForTimeOnly (n : Nat) (s : State) : StopsForTimeOnly (spinTo stop n s) := by
  induction n generalizing s with
  | zero => exact s.spinRead_stopsForTimeOnly.thenRun fun _ => stopsForTimeOnly_next _
  | succ n ih => exact s.spinRead_stopsForTimeOnly.thenRun fun _ => (ih _).ite (stopsForTimeOnly_next _)

theorem State.spinOn_stopsForTimeOnly (s : State) : StopsForTimeOnly (s.spinOn stop) := by
  unfold State.spinOn
  split
  · exact stopsForTimeOnly_next _
  · exact (stopsForTimeOnly_next _).ite (spinTo_stopsForTimeOnly stop _ s)

theorem runTo_stopsForTimeOnly (items : List Item) (s : State) :
    StopsForTimeOnly (runTo stop items s) := by
  induction items generalizing s with
  | nil => exact stopsForTimeOnly_next s
  | cons x r ih =>
    cases x with
    | loc l => exact ih _
    | op o => exact (stopsForTimeOnly_next _).ite (ih _)
    | wait =>
      have hwait : StopsForTimeOnly (s.waitTo stop) :=
        s.waitStart_stopsForTimeOnly.thenRun fun t => t.bumpUpc.spinOn_stopsForTimeOnly stop
      exact (hwait.thenRun fun _ => (stopsForTimeOnly_next _).ite (ih _)).ite (ih _)

end

theorem runFrom_stopsForTimeOnly (items : List Item) (s : State) : StopsForTimeOnly (runFrom items s) :=
  (s.spinOn_stopsForTimeOnly s.stop).thenRun fun u =>
    (stopsForTimeOnly_next u).ite (runTo_stopsForTimeOnly u.stop _ u)

/-! ## Host moves keep no command from a next state -/

/-- `o` is what `p` comes to where host moves land at `stop`: a next state wherever `p` is one, the same or an
earlier one at which a move lands (R76). -/
def Interrupts (stop : Option Nat) (o p : StepOutcome) : Prop :=
  ∀ v, p = .next v → ∃ u, o = .next u ∧ (u = v ∨ u.dueAt stop = true)

theorem Interrupts.refl (stop : Option Nat) (o : StepOutcome) : Interrupts stop o o :=
  fun v hv => ⟨v, hv, .inl rfl⟩

theorem Interrupts.of_due {stop : Option Nat} {u : State} (h : u.dueAt stop = true) (p : StepOutcome) :
    Interrupts stop (.next u) p :=
  fun _ _ => ⟨u, rfl, .inr h⟩

theorem Interrupts.thenRun {stop : Option Nat} (o : StepOutcome) {f g : State → StepOutcome}
    (h : ∀ t, Interrupts stop (f t) (g t)) : Interrupts stop (Machine.thenRun o f) (Machine.thenRun o g) := by
  intro v hv
  obtain ⟨t, rfl, hv⟩ := thenRun_eq_next _ _ _ hv
  exact h t v hv

/-- One part may be interrupted; the next begins where it was not. -/
theorem Interrupts.andThen {stop : Option Nat} {o p : StepOutcome} {f g : State → StepOutcome}
    (h : Interrupts stop o p) (hfg : ∀ u, Interrupts stop (f u) (g u)) :
    Interrupts stop (Machine.thenRun o fun u => if u.dueAt stop then .next u else f u)
      (Machine.thenRun p g) := by
  intro v hv
  obtain ⟨w, hw, hv⟩ := thenRun_eq_next _ _ _ hv
  obtain ⟨u, rfl, hu⟩ := h w hw
  rw [thenRun_next]
  split
  · next hdue => exact ⟨u, rfl, .inr hdue⟩
  · next hdue =>
    obtain rfl := hu.resolve_right hdue
    exact hfg u v hv

section
variable (stop : Option Nat)

theorem spinTo_interrupts (n : Nat) (s : State) : Interrupts stop (spinTo stop n s) (spinTo none n s) := by
  induction n generalizing s with
  | zero => exact .refl _ _
  | succ n ih =>
    refine .thenRun _ fun t => ?_
    cases hd : t.bumpUpc.dueAt stop with
    | true => simpa using .of_due hd _
    | false =>
      cases ht : t.ctl.spin with
      | none => exact .refl _ _
      | some x => exact ih t.bumpUpc

theorem State.spinOn_interrupts (s : State) : Interrupts stop (s.spinOn stop) (s.spinOn none) := by
  cases hx : s.ctl.spin with
  | none =>
    rw [State.spinOn_of_spin_none stop hx, State.spinOn_of_spin_none none hx]
    exact .refl _ _
  | some x =>
    rw [State.spinOn_none_eq hx]
    simp only [State.spinOn, hx]
    split
    · next hd => exact .of_due hd _
    · exact spinTo_interrupts stop _ s

theorem State.waitTo_interrupts (s : State) : Interrupts stop (s.waitTo stop) s.wait :=
  .thenRun _ fun t => t.bumpUpc.spinOn_interrupts stop

theorem runTo_interrupts (items : List Item) (s : State) :
    Interrupts stop (runTo stop items s) (runAll items s) := by
  induction items generalizing s with
  | nil => exact .refl _ _
  | cons x r ih =>
    cases x with
    | loc l => exact ih _
    | op o =>
      simp only [runTo, runAll]
      split
      · next hd => exact .of_due hd _
      · exact ih _
    | wait =>
      simp only [runTo, runAll]
      split
      · exact (s.waitTo_interrupts stop).andThen ih
      · exact ih _

end

theorem runFrom_interrupts (items : List Item) (s : State) :
    Interrupts s.stop (runFrom items s) (restOf items s) := by
  have hstop : runFrom items s = thenRun (s.spinOn s.stop) fun u =>
      if u.dueAt s.stop then .next u else runTo s.stop (dropOps u.ctl.upc items) u :=
    thenRun_congr _ _ _ fun u hu => by
      have hscript : u.stop = s.stop := State.stop_congr _ _ (State.spinOn_same _ _ _ hu).script
      rw [State.due, run, hscript]
  rw [hstop]
  exact (s.spinOn_interrupts s.stop).andThen fun u => runTo_interrupts s.stop _ u

/-- A command that comes to a next state undisturbed comes to one whatever host moves are to come. -/
theorem runFrom_next_of_restOf {items : List Item} {s : State} (h : ∃ v, restOf items s = .next v) :
    ∃ u, runFrom items s = .next u := by
  obtain ⟨v, hv⟩ := h
  obtain ⟨u, hu, _⟩ := runFrom_interrupts items s v hv
  exact ⟨u, hu⟩

/-! ## Room for what is left of a command -/

theorem spinsAhead_le_of_le {j k : Nat} (hjk : j ≤ k) (d : Draws Nat) : spinsAhead j d ≤ spinsAhead k d :=
  monotone_nat_of_le_succ (fun w => spinsAhead_le_succ w d) hjk

/-- Room for some WAITs is room for fewer. -/
theorem State.timeRoom_of_le {s : State} {j k : Nat} (hjk : j ≤ k) (h : s.timeRoom k = true) :
    s.timeRoom j = true := by
  obtain ⟨hsched, hspin, hroom⟩ := (s.timeRoom_iff k).1 h
  have hspins := spinsAhead_le_of_le hjk s.env.spins
  have helapsed : elapsedAhead (s.spinReads + j + spinsAhead j s.env.spins) s.env.elapsed ≤
      elapsedAhead (s.spinReads + k + spinsAhead k s.env.spins) s.env.elapsed :=
    elapsedAhead_le_of_le (by omega) _
  exact (s.timeRoom_iff j).2 ⟨hsched, hspin, by omega⟩

/-- A spin that has room ends, and leaves the room for the WAITs after it (R177). -/
theorem State.spinOn_next_of_timeRoom {s : State} {w : Nat} (h : s.timeRoom w = true) :
    ∃ t, s.spinOn none = .next t ∧ t.ctl.spin = none ∧ t.timeRoom w = true := by
  cases hx : s.ctl.spin with
  | none => exact ⟨s, State.spinOn_of_spin_none none hx, hx, h⟩
  | some x =>
    obtain ⟨_, _, hroom⟩ := (s.timeRoom_iff w).1 h
    rw [State.horizon, State.spinReads, hx] at hroom
    dsimp only at hroom
    have hreads := spinEnd_add_elapsedAhead_le x.deadline.toNat x.left (w + spinsAhead w s.env.spins)
      s.mono.toNat s.env.elapsed
    rw [← Nat.add_assoc] at hreads
    have hlim : (spinEnd x.deadline.toNat x.left s.mono.toNat s.env.elapsed).1 < timeLimit := by
      omega
    obtain ⟨upc, steps, hspin⟩ := spinTo_none x.deadline x.left s hx
    rw [if_pos hlim] at hspin
    refine ⟨_, (State.spinOn_none_eq hx).trans hspin, rfl, (State.timeRoom_iff_of_spin_none rfl w).2 ?_⟩
    simp only [toNat_ofNat_time _ hlim]
    exact ⟨le_spinEnd _ _ _ _, by omega⟩

theorem countWaits_dropOps_le (n : Nat) (items : List Item) :
    countWaits (dropOps n items) ≤ countWaits items := by
  induction items generalizing n with
  | nil => rw [dropOps_nil]
  | cons x r ih =>
    cases n with
    | zero => rw [dropOps_zero]
    | succ n =>
      cases x with
      | loc l => exact ih (n + 1)
      | op o => exact ih n
      | wait => exact (ih n).trans (Nat.le_succ _)

/-- Where the timebase has room for the WAITs of a program, what is left of it runs to its end. -/
theorem restOf_next_of_timeRoom {items : List Item} {s : State} {w : Nat} (hw : countWaits items ≤ w)
    (h : s.timeRoom w = true) : ∃ t, restOf items s = .next t := by
  obtain ⟨u, hu, hspin, hroom⟩ := State.spinOn_next_of_timeRoom h
  rw [restOf, hu, thenRun_next]
  exact runAll_next_of_timeRoom _ u hspin
    (State.timeRoom_of_le ((countWaits_dropOps_le _ items).trans hw) hroom)

/-- A program that makes no WAIT asks nothing of the timebase. -/
theorem runAll_next_of_no_waits (items : List Item) (s : State) (h : countWaits items = 0) :
    ∃ t, runAll items s = .next t := by
  induction items generalizing s with
  | nil => exact ⟨s, rfl⟩
  | cons x r ih =>
    cases x with
    | loc l => exact ih _ h
    | op o => exact ih _ h
    | wait => cases h

/-! ## The WAITs of a command -/

theorem FailsCheck.countWaits_eq_zero {items : List Item} (h : FailsCheck items) : countWaits items = 0 := by
  obtain ⟨r, _, rfl⟩ := h
  rfl

/-- A command makes the WAITs its row says, or fails a check before any of them. -/
theorem countWaits_programOf_le (i : Instr) (s : State) : countWaits (programOf i s) ≤ s.waitsOf i := by
  have hfinish : ∀ xs c, countWaits (xs ++ finishOnly c) = countWaits xs := fun xs c => by
    rw [countWaits_append]; rfl
  cases i with
  | nop => exact le_rfl
  | create p =>
    simp only [programOf, createProgram, withSlot]
    split
    · exact le_rfl
    · rw [createItems_eq, countWaits_append]
      exact (countWaits_createLines ..).le
  | release p =>
    simp only [programOf, releaseProgram, withSlot]
    split
    · exact le_rfl
    · split <;> exact le_rfl
  | wrdata p n =>
    rcases programOf_wrdata s p n with hfail | hprog
    · rw [hfail.countWaits_eq_zero]; exact Nat.zero_le _
    · rw [hprog, hfinish, countWaits_writeFront]; rfl
  | wrcmd p imm =>
    rcases programOf_wrcmd s p imm with hfail | hprog
    · rw [hfail.countWaits_eq_zero]; exact Nat.zero_le _
    · rw [hprog, hfinish, countWaits_writeFront]; rfl
  | rddata p n =>
    rcases programOf_rddata s p n with hfail | ⟨_, hprog⟩
    · rw [hfail.countWaits_eq_zero]; exact Nat.zero_le _
    · rw [hprog, hfinish, countWaits_readLines]; rfl
  | rdreg p =>
    rcases programOf_rdreg s p with hfail | ⟨_, hprog⟩
    · rw [hfail.countWaits_eq_zero]; exact Nat.zero_le _
    · rw [hprog, hfinish, countWaits_readLines]; rfl

theorem State.waitsOf_begin (s : State) (i : Instr) : s.begin.waitsOf i = s.waitsOf i := by
  cases i <;> rfl

theorem exec_next_of_no_waits {i : Instr} {s : State} (h : s.waitsOf i = 0) : ∃ t, exec i s = .next t := by
  have hwaits : countWaits (programOf i s.begin) = 0 := by
    have hle := countWaits_programOf_le i s.begin
    rwa [s.waitsOf_begin, h, Nat.le_zero] at hle
  rw [exec_eq_runFrom]
  refine runFrom_next_of_restOf ?_
  rw [restOf_of_spin_none _ rfl]
  exact runAll_next_of_no_waits _ _ (Nat.le_zero.1 ((countWaits_dropOps_le _ _).trans hwaits.le))

theorem exec_next_of_timeRoom {i : Instr} {s : State} (h : s.timeRoom (s.waitsOf i) = true) :
    ∃ t, exec i s = .next t := by
  have hbegin : s.begin.timeRoom (s.waitsOf i) = true :=
    State.timeRoom_of_spin_none h rfl rfl rfl rfl rfl
  have hwaits := countWaits_programOf_le i s.begin
  rw [s.waitsOf_begin] at hwaits
  rw [exec_eq_runFrom]
  exact runFrom_next_of_restOf (restOf_next_of_timeRoom hwaits hbegin)

theorem State.resume_next_of_timeRoom {i : Instr} {s : State} (hi : decode s.regs.cmd = .ok i)
    (h : s.timeRoom (s.waitsOf i) = true) : ∃ t, s.resume = .next t := by
  rw [State.resume, State.running_of_decode s i hi]
  exact runFrom_next_of_restOf (restOf_next_of_timeRoom (countWaits_programOf_le i s) h)

/-- Settles O25: only a time out of range stops a program, a program with room runs to its end undisturbed, and
host moves only cut it short at a next state. -/
theorem commandsStopOnlyWhereTimeRunsOut : Obligations.CommandsStopOnlyWhereTimeRunsOut := by
  intro i s
  have hexec : StopsForTimeOnly (exec i s) := by
    rw [exec_eq_runFrom]
    exact runFrom_stopsForTimeOnly _ _
  have hresume : StopsForTimeOnly s.resume := runFrom_stopsForTimeOnly _ _
  exact ⟨⟨hexec.not_fault, hexec.eq_timeRange, exec_next_of_no_waits, exec_next_of_timeRoom⟩,
    hresume.not_fault, hresume.eq_timeRange, State.resume_next_of_timeRoom⟩

end Sys2Proof.Machine
end

section
/-! SUPPORT. The schedule of a transfer none of whose WAITs overruns: the increments its WAITs commit, one by
one, and their sum (70_reset_and_hazards.md R310-R312). -/

namespace Sys2Proof.Machine

open Sys2Proof.Config (Params)

/-! ## The increments a program's WAITs commit -/

/-- The increment an item leaves pending: ADV's own (R170). -/
def Item.pending : Item → Word → Word
  | .op (.adv e), _ => e
  | _, d => d

/-- What an item commits of the pending increment: a WAIT the whole of it (R171). -/
def Item.commits : Item → Word → List Word
  | .wait, d => [d]
  | _, _ => []

/-- The increments that the WAITs of a program commit, in order and the inherited one first, and the one it
leaves pending. -/
def commits : List Item → Word → List Word × Word
  | [], d => ([], d)
  | x :: r, d => (x.commits d ++ (commits r (x.pending d)).1, (commits r (x.pending d)).2)

theorem Item.effect_timing (x : Item) (s : State) : (x.effect s).tl.timing = x.pending s.tl.timing := by
  rw [← x.effect_pace s 0]
  cases x with
  | op o => cases o <;> rfl
  | _ => rfl

theorem commits_append (xs ys : List Item) (d : Word) :
    commits (xs ++ ys) d =
      ((commits xs d).1 ++ (commits ys (commits xs d).2).1, (commits ys (commits xs d).2).2) := by
  induction xs generalizing d with
  | nil => rfl
  | cons x r ih => simp only [List.cons_append, commits, ih, List.append_assoc]

/-- The items request the increments `ds` and commit what was pending and all of them but the last, each by a
WAIT of its own. -/
def Commits (items : List Item) (ds : List Word) : Prop :=
  ∀ d, commits items d = ((d :: ds).dropLast, ds.getLastD d)

theorem Commits.nil : Commits [] [] := fun _ => rfl

theorem dropLast_cons_append {α : Type} (d : α) (ds es : List α) :
    (d :: (ds ++ es)).dropLast = (d :: ds).dropLast ++ (ds.getLastD d :: es).dropLast := by
  induction ds generalizing d with
  | nil => rfl
  | cons x r ih =>
    rw [List.cons_append, List.dropLast_cons_cons, List.dropLast_cons_cons, ih, List.getLastD_cons,
      List.cons_append]

theorem Commits.append {xs ys : List Item} {ds es : List Word} (hx : Commits xs ds) (hy : Commits ys es) :
    Commits (xs ++ ys) (ds ++ es) := by
  intro d
  rw [commits_append, hx, hy, dropLast_cons_append]
  congr 1
  cases es <;> simp [List.getLastD_eq_getLast?]

theorem Commits.flatMap {α : Type} (l : List α) {f : α → List Item} {g : α → List Word}
    (h : ∀ x, Commits (f x) (g x)) : Commits (l.flatMap f) (l.flatMap g) := by
  induction l with
  | nil => exact .nil
  | cons x r ih => exact (h x).append ih

/-! ## A run that is on time -/

/-- The WAITs that commit the increments `ds` one after the other, the first of them next, do not overrun. -/
def State.onTime (s : State) (ds : List Word) : Bool :=
  Machine.onTime ds s.tl.sched.toNat s.mono.toNat s.env.elapsed s.env.spins

/-- A WAIT that does not overrun commits the pending increment exactly, and the WAITs after it start from the
clock and the supplies it leaves (R171). -/
theorem State.onTime_wait {s t : State} {ds : List Word} (h : s.wait = .next t)
    (hon : s.onTime (s.tl.timing :: ds) = true) :
    t.tl.sched.toNat = s.tl.sched.toNat + s.tl.timing.toNat ∧ t.onTime ds = true := by
  obtain ⟨upc, steps, hw⟩ := s.wait_eq _ rfl
  rw [hw] at h
  split at h
  · next hlim =>
    obtain ⟨_, _, hdlim, helim⟩ := hlim
    have hfirst : s.env.elapsed.value Config.elapsed = s.nextElapsed := rfl
    cases h
    simp only [State.onTime, State.waited, toNat_ofNat_time _ hdlim, toNat_ofNat_time _ helim]
    rw [State.onTime, Machine.onTime, hfirst] at hon
    split at hon
    · next hlt =>
      have hdeadline := State.waitDeadline_of_le hlt.le
      rw [State.waitEnd, hdeadline, if_neg hlt.not_ge, if_neg hlt.not_ge, if_neg hlt.not_ge]
      exact ⟨rfl, hon⟩
    · obtain ⟨heq, hon⟩ := Bool.and_eq_true_iff.1 hon
      have hnow := of_decide_eq_true heq
      have hdeadline := State.waitDeadline_of_le hnow.le
      rw [State.waitEnd_of_le (hdeadline.trans hnow.symm).le, hdeadline, if_pos hnow.ge, if_pos hnow.ge]
      exact ⟨rfl, hon⟩
  · cases h

/-- The first item of a run that is on time moves the schedule by what it commits, and the rest is on time. -/
theorem runAll_cons_onTime {x : Item} {r : List Item} {s t : State} {ds : List Word}
    (hb : (x.effect s).regs.busy = true) (h : runAll (x :: r) s = .next t)
    (hon : s.onTime (x.commits s.tl.timing ++ ds) = true) :
    ∃ u, u = (x.effect s).withTimeOf u ∧ runAll r u = .next t ∧ u.onTime ds = true ∧
      u.tl.sched.toNat = s.tl.sched.toNat + ((x.commits s.tl.timing).map BitVec.toNat).sum := by
  have hbs : s.regs.busy = true := (x.effect_runKeeps s).busy hb
  cases x with
  | loc l =>
    rw [runAll_loc _ _ _ hbs] at h
    obtain ⟨hsched, hmono, helapsed⟩ := localEffect_time l s
    refine ⟨_, rfl, h, ?_, by rw [hsched]; rfl⟩
    rw [State.onTime, hsched, hmono, helapsed, localEffect_spins]
    exact hon
  | op o =>
    rw [runAll, State.whileBusy_busy s _ hbs] at h
    obtain ⟨_, _, hbump⟩ := (opEffect o s).bumpUpc_eq
    obtain ⟨hsched, hmono, helapsed⟩ := opEffect_time o s
    refine ⟨_, (opEffect o s).bumpUpc_same.eq_withTimeOf, h, ?_, by rw [hbump]; exact congrArg _ hsched⟩
    rw [hbump, State.onTime]
    dsimp only
    rw [hsched, hmono, helapsed, opEffect_spins]
    exact hon
  | wait =>
    rw [runAll, if_pos hbs] at h
    obtain ⟨u, hu, h⟩ := thenRun_eq_next _ _ _ h
    obtain ⟨hsched, hrest⟩ := State.onTime_wait hu hon
    exact ⟨u, (State.waitTo_same _ _ _ hu).eq_withTimeOf, h, hrest, hsched⟩

/-- A run that is on time moves the schedule by exactly what its WAITs commit. -/
theorem runAll_onTime {items : List Item} {s t : State} (hb : (effects items s).regs.busy = true)
    (h : runAll items s = .next t) (hon : s.onTime (commits items s.tl.timing).1 = true) :
    t.tl.sched.toNat = s.tl.sched.toNat + ((commits items s.tl.timing).1.map BitVec.toNat).sum := by
  induction items generalizing s with
  | nil => cases h; rfl
  | cons x r ih =>
    obtain ⟨u, hu, h, hrest, hsched⟩ := runAll_cons_onTime (busy_of_effects hb) h hon
    have hbu : (effects r u).regs.busy = true := by
      rw [hu, effects_withTimeOf r _ u hb]
      exact hb
    have htiming : u.tl.timing = x.pending s.tl.timing := by
      rw [hu, ← x.effect_timing]
      rfl
    rw [← htiming] at hrest
    rw [ih hbu h hrest, hsched, htiming, commits, List.map_append, List.sum_append, Nat.add_assoc]

/-- A finished command none of whose WAITs overruns moved the schedule by the increment it inherited and by
all it requested but the last. -/
theorem sched_of_exec_finished {i : Instr} {s t : State} {lines : List Item} {d : Word} {ds : List Word}
    (hprog : programOf i s.begin = lines ++ finishOnly .ok) (hcommits : Commits lines (d :: ds))
    (hbusy : (effects lines s.begin).regs.busy = true) (h : exec i s = .next t) (hd : t.doneOk)
    (hon : s.noOverrun (d :: ds) = true) :
    t.tl.sched.toNat = s.tl.sched.toNat + s.tl.timing.toNat + committed (d :: ds) := by
  obtain ⟨hidle, _⟩ := hd
  obtain ⟨u, hu, rfl⟩ := exec_finished hprog h hidle
  have hlist : (commits lines s.begin.tl.timing).1 = s.tl.timing :: (d :: ds).dropLast := by
    rw [hcommits]
    rfl
  have hsched := runAll_onTime hbusy hu (by rw [hlist]; exact hon)
  rw [hlist, List.map_cons, List.sum_cons, ← Nat.add_assoc] at hsched
  rw [State.whileBusy_busy u _ (by rw [runAll_effects hbusy hu]; exact hbusy)]
  exact hsched

/-! ## Writes -/

theorem writeGroup_commits (par : Params) (q : Slot) (k : Nat) :
    Commits (writeGroup par q k) [q.tClock, q.dW par k] := by
  intro d
  unfold writeGroup
  cases q.assertOrder <;> cases q.deassertOrder <;> rfl

/-- The increments one byte of a write requests, in order (R190). -/
def byteDelays (par : Params) (q : Slot) : List Word :=
  (List.range q.bpc.groups).flatMap fun k => [q.tClock, q.dW par k]

theorem writeByte_commits (par : Params) (q : Slot) (src : ByteSource) (i : Nat) :
    Commits (writeByte par q src i) (byteDelays par q) :=
  .append (xs := [.loc (.loadByte i src)]) .nil (.flatMap _ (writeGroup_commits par q))

theorem writeFront_commits (par : Params) (q : Slot) (kind : Kind) (n : Nat) (src : ByteSource) :
    Commits (writeFront par q kind n src) (writeDelays par q n) := by
  have hopening : Commits (writeOpening par q kind) [q.tSetup] := by
    intro d
    unfold writeOpening
    cases q.assertOrder <;> rfl
  have hclosing : Commits (writeClosing par q) [] := by
    unfold writeClosing
    cases q.assertOrder <;> exact .nil
  have h := (hopening.append (.flatMap (List.range n) (writeByte_commits par q src))).append hclosing
  rwa [List.append_nil] at h

theorem writeFront_busy (par : Params) (q : Slot) (kind : Kind) (n : Nat) (src : ByteSource) (s : State) :
    (effects (writeFront par q kind n src) s).regs.busy = s.regs.busy := by
  obtain ⟨c, hc⟩ := effects_writeFront par q kind n src s
  rw [hc]
  rfl

theorem sched_of_write_done {i : Instr} {s t : State} {q : Slot} {kind : Kind} {n : Nat} {src : ByteSource}
    (hprog : FailsCheck (programOf i s.begin) ∨
      programOf i s.begin = writeFront s.params q kind n src ++ finishOnly .ok)
    (h : exec i s = .next t) (hd : t.doneOk) (hon : s.noOverrun (writeDelays s.params q n) = true) :
    t.tl.sched.toNat = s.tl.sched.toNat + s.tl.timing.toNat + committed (writeDelays s.params q n) :=
  sched_of_exec_finished (checks_passed_of_doneOk hprog h hd) (writeFront_commits s.params q kind n src)
    (writeFront_busy s.params q kind n src s.begin) h hd hon

/-- Settles O38: WRDATA and WRCMD both run the write program, whose WAITs commit `writeDelays`. -/
theorem writeScheduleIsExactWithoutOverrun : Obligations.WriteScheduleIsExactWithoutOverrun := by
  intro s t p n imm q hq hon h hd
  subst hq
  rcases h with hwrdata | ⟨rfl, hwrcmd⟩
  · exact sched_of_write_done (programOf_wrdata s.begin p n) hwrdata hd hon
  · exact sched_of_write_done (programOf_wrcmd s.begin p imm) hwrcmd hd hon

/-! ## Reads -/

theorem driveItems_commits (p : Pin) (l : Bool) : Commits (driveItems p l) [] := by
  cases p with
  | none => exact .nil
  | some i => cases l <;> exact .nil

/-- R224, R312: no WAIT stands between the ADV of `t_clock` and the next, so none commits it. -/
theorem readGroupItems_commits (par : Params) (q : Slot) (k : Nat) :
    Commits (readGroupItems par q k) [q.tRead, q.dR k] := by
  intro d
  unfold readGroupItems
  cases q.assertOrder <;> cases q.deassertOrder <;> rfl

theorem readUnit_commits (par : Params) (q : Slot) (snk : Sink) (i : Nat) :
    Commits (readUnit par q snk i) ((List.range q.bpc.groups).flatMap fun k => [q.tRead, q.dR k]) := by
  have hstart : Commits [.loc (.startUnit i)] [] := .nil
  have hsink : Commits (sinkItems snk i) [] := by cases snk <;> exact .nil
  have h := (hstart.append (.flatMap (List.range q.bpc.groups) (readGroupItems_commits par q))).append hsink
  rwa [List.append_nil] at h

theorem readLines_commits (par : Params) (q : Slot) (kind : Kind) (n : Nat) (snk : Sink) :
    Commits (readLines par q kind n snk) (readDelays q n) := by
  have hdirection : Commits (readDirection par q) [] := by
    rcases readDirection_eq par q with h | h <;> rw [h]
    · exact driveItems_commits _ _
    · exact .nil
  have hsetup : Commits (.wait :: applyItems (q.readSetup par kind) q.assertOrder ++ [.op (.adv q.tSetup)])
      [q.tSetup] := by
    intro d
    cases q.assertOrder <;> rfl
  have hlast : Commits (readLast snk) [] := by cases snk <;> exact .nil
  have h := (((hdirection.append hsetup).append (.flatMap (List.range n) (readUnit_commits par q snk))).append
    (driveItems_commits q.rwrd (q.hostLvl par))).append hlast
  simpa [readLines, readFront, readDelays] using h

theorem sched_of_read_done {i : Instr} {s t : State} {q : Slot} {kind : Kind} {n : Nat} {snk : Sink}
    (hprog : FailsCheck (programOf i s.begin) ∨
      (q.rwrd ≠ none ∧ programOf i s.begin = readLines s.params q kind n snk ++ finishOnly .ok))
    (h : exec i s = .next t) (hd : t.doneOk) (hon : s.noOverrun (readDelays q n) = true) :
    t.tl.sched.toNat = s.tl.sched.toNat + s.tl.timing.toNat + committed (readDelays q n) := by
  obtain ⟨_, hlines⟩ := checks_passed_of_doneOk hprog h hd
  obtain ⟨_, _, hbusy⟩ := readLines_logs s.params q kind n snk s.begin
  exact sched_of_exec_finished hlines (readLines_commits s.params q kind n snk) hbusy h hd hon

/-- Settles O42: RDDATA and RDREG both run the read program, whose WAITs commit `readDelays`. -/
theorem readScheduleIsExactWithoutOverrun : Obligations.ReadScheduleIsExactWithoutOverrun := by
  intro s t p n q hq hon h hd
  subst hq
  rcases h with hrddata | ⟨rfl, hrdreg⟩
  · exact sched_of_read_done (programOf_rddata s.begin p n) hrddata hd hon
  · exact sched_of_read_done (programOf_rdreg s.begin p) hrdreg hd hon

/-! ## The span of a write -/

theorem writeDelays_succ (par : Params) (q : Slot) (n : Nat) :
    writeDelays par q (n + 1) = writeDelays par q n ++ byteDelays par q := by
  simp [writeDelays, byteDelays, List.range_succ]

/-- A byte ends with the delay after its last group. -/
theorem byteDelays_eq_concat (par : Params) (q : Slot) :
    ∃ ds, byteDelays par q = ds ++ [q.dW par (q.bpc.groups - 1)] := by
  unfold byteDelays
  cases q.bpc
  case w4 => exact ⟨[q.tClock, q.dW par 0, q.tClock], rfl⟩
  case w8 => exact ⟨[q.tClock], rfl⟩

theorem committed_concat (ds : List Word) (d : Word) : committed (ds ++ [d]) = (ds.map BitVec.toNat).sum := by
  rw [committed, List.dropLast_concat]

theorem Slot.dW_toNat {par : Params} (hfloor : par.holdFloorOnWrite = true) (q : Slot) (k : Nat) :
    (q.dW par k).toNat = max (q.gap k).toNat q.tHold.toNat := by
  obtain ⟨_, hon, _⟩ := deassertDelaysAreFlooredByHold par q k _ rfl
  exact hon hfloor

/-- The span of one byte: its groups but the last are followed by the floored `t_clock`, the last by the
floored `t_proc` (R195, R311). -/
theorem byteDelays_sum {par : Params} (hfloor : par.holdFloorOnWrite = true) (q : Slot) :
    ((byteDelays par q).map BitVec.toNat).sum = q.bpc.groups * q.tClock.toNat
      + (q.bpc.groups - 1) * max q.tClock.toNat q.tHold.toNat + max q.tProc.toNat q.tHold.toNat := by
  cases hbpc : q.bpc with
  | w4 =>
    have hdelays : byteDelays par q = [q.tClock, q.dW par 0, q.tClock, q.dW par 1] := by
      rw [byteDelays, hbpc]
      rfl
    have hinner : (q.dW par 0).toNat = max q.tClock.toNat q.tHold.toNat := by
      rw [Slot.dW_toNat hfloor, Slot.gap, hbpc]
      rfl
    have hlast : (q.dW par 1).toNat = max q.tProc.toNat q.tHold.toNat := by
      rw [Slot.dW_toNat hfloor, Slot.gap, hbpc]
      rfl
    simp only [hdelays, List.map, List.sum_cons, List.sum_nil, hinner, hlast, BusWidth.groups]
    omega
  | w8 =>
    simp [byteDelays, Slot.dW_toNat hfloor, Slot.gap, hbpc, BusWidth.groups]

theorem writeDelays_sum (par : Params) (q : Slot) (n : Nat) :
    ((writeDelays par q n).map BitVec.toNat).sum =
      q.tSetup.toNat + n * ((byteDelays par q).map BitVec.toNat).sum := by
  induction n with
  | zero => simp [writeDelays]
  | succ n ih =>
    rw [writeDelays_succ, List.map_append, List.sum_append, ih]
    ring

/-- Settles O39: with the last delay counted the span is the sum of all the increments, byte by byte. -/
theorem writeSpanFormula : Obligations.WriteSpanFormula := by
  intro par q n G hfloor hG
  subst hG
  obtain ⟨ds, hds⟩ := byteDelays_eq_concat par q
  calc committed (writeDelays par q (n + 1)) + (q.dW par (q.bpc.groups - 1)).toNat
      = ((writeDelays par q (n + 1)).map BitVec.toNat).sum := by
        rw [writeDelays_succ, hds, ← List.append_assoc, committed_concat]
        simp [Nat.add_assoc]
    _ = q.tSetup.toNat + (n + 1) * ((byteDelays par q).map BitVec.toNat).sum := writeDelays_sum ..
    _ = _ := by rw [byteDelays_sum hfloor]

end Sys2Proof.Machine
end
